-- ==== Sys2Proof/Word.lean ====
section
/-! DEFINITION. The plain types the whole model of the OB1624 uses: bytes, station times, channel sets and the
names of channels and stations (1.8 Conventions of 00_scope.md). -/

namespace Sys2Proof

/-- One byte of a frame payload (R199). -/
abbrev Byte := BitVec 8

/-- A station time: a 48-bit count of ticks that wraps (R157). -/
abbrev StationTime := BitVec 48

/-- A set of channels, or one level per channel: bit `n` stands for channel `n`, 1 for HIGH or for membership (R199). -/
abbrev ChanSet := BitVec 16

/-- A channel number, 0 to 15. -/
abbrev Chan := Fin 16

/-- A station number, 0 to 7. -/
abbrev Station := Fin 8

/-- The two word queues (7.2). -/
inductive QueueId where
  | a
  | b
  deriving DecidableEq, Repr

/-- The consumers of one element of the sampled stream (R9). A schedule of them says in which order they take it:
`decoder u` names decoder unit `u` the first time, and each further time the next word that unit completed (R98); `mark`
is the mark unit, which takes no element but a fire that the element may have formed (R67). -/
inductive Consumer where
  | store
  | sequencer
  | decoder (u : Fin 4)
  | mark
  deriving DecidableEq, Repr

end Sys2Proof
end

