-- ==== Sys2Proof/Config.lean ====
section
/-! DEFINITION. What the part fixes once and for all (sizes and durations the manual states), and the free values:
constants without a body that stand for what the manual leaves open, so that nothing can be proved of them. -/

namespace Sys2Proof.Config

/-- Places of the record memory (R15). -/
def recordPlaces : Nat := 32768

/-- Bytes of the frame buffer (R197). -/
def frameBufferBytes : Nat := 19200

/-- Frames the transmit queue holds (R146). -/
def txQueueFrames : Nat := 8

/-- Entries of the ask table (R170). -/
def askEntries : Nat := 8

/-- Columns of a view window (R187). -/
def viewColumns : Nat := 280

/-- Ticks of a MARK pulse and of a TRIG_OUT pulse (R83, R93). -/
def pulseTicks : Nat := 16

/-- Ticks of the edge wait of a pulse (R83). -/
def edgeWaitTicks : Nat := 32

/-- Ticks after which a silent peer goes ABSENT (R160). -/
def presenceTicks : Nat := 2 ^ 28

/-- Ticks of the rejoin timer (R154). -/
def rejoinTicks : Nat := 2 ^ 26

/-- Ticks of a fetch deadline (R190). -/
def deadlineTicks : Nat := 2 ^ 23

/-- Ticks of the re-ask timer (R190). -/
def reaskTicks : Nat := 2 ^ 20

/-- Ticks of one push: 19,200 bytes of 8 ticks each (R197). -/
def pushTicks : Nat := 153600

/-- Ticks of one backlight PWM period (R197). -/
def backlightPeriod : Nat := 15360

/-- Recessive bits that complete a join (R153). -/
def joinBits : Nat := 20

/-- Recessive bits that make the bus free (R141). -/
def freeBits : Nat := 8

/-- Dominant bits that make a bus break (R155). -/
def breakBits : Nat := 32

/-- The part code carried in a ROLL_CALL (R201). -/
def partCode : Nat := 0x0B16

/-- FREE VALUE (log entry 3). Whether the font sets pixel `(row, col)` of the 6 x 8 cell of a character code. The
manual does not give the pixel pattern of any cell (R193). -/
opaque glyph : (code row col : Nat) → Bool

/-- FREE VALUE (log entry 4). Among events that fall due at the same tick either may be taken first; `dueOrder n` is
the place at which the `n`-th such choice inserts an event among the others. -/
opaque dueOrder : (choice : Nat) → Nat

/-- FREE VALUE (log entry 5). The order in which the three kinds of consumer take the element of a boundary that the
clock raises by itself (R9, R98, R99). -/
opaque boundarySchedule : (choice : Nat) → List Consumer

/-- FREE VALUE (log entry 6). The destination field of a frame sent with the broadcast bit set: the manual gives it no
value (R139). -/
opaque broadcastDst : Station

/-- FREE VALUE (log entry 34). Byte `i` of the `n`-th place of a status report whose item is absent, where no table
gives it a content: an empty latch slot's word (`what` 0), an unused place of the edge list (1), the bank set, part
code and panel mark of a peer that has no roll-call details (2); `report` numbers the report. -/
opaque absentByte : (report what n i : Nat) → Byte

/-- FREE VALUE (log entry 66). The peer number bits of a MARK cause whose peer number is absent (R200). -/
opaque absentPeer : BitVec 3

/-- FREE VALUE (log entry 67). The ending bit of a MARK cause, which has no ending: R200 names the bit for every cause, and
no rule gives a MARK cause a value there. -/
opaque markEnding : Bool

end Sys2Proof.Config
end

