-- ==== Sys2Proof/Syntax.lean ====
section
/-! DEFINITION. The commands of the OB1624: one constructor per row of spec/opcode_table.json, with what the outside
supplies with it (pin levels, a received frame, which lane or peer a timer belongs to). -/

namespace Sys2Proof

/-- The levels at the strap pins and the bank sense pins, `true` for high (R1, R137). -/
structure Straps where
  bs0 : Bool
  bs1 : Bool
  /-- ST0–ST2 read as a number, ST0 least significant -/
  st : Station
  /-- RT0–RT1 -/
  rt : BitVec 2
  /-- CD0–CD1 -/
  cd : BitVec 2
  pnl : Bool
  deriving DecidableEq, Repr

/-- A good frame as a receiver has it after the last end bit (R139, R143): the header fields other than the kind and
the length, the stamp of its start edge (R158), and the payload. -/
structure RxFrame where
  src : Station
  dst : Station
  bcast : Bool
  stamp : StationTime
  payload : List Byte
  deriving DecidableEq, Repr

/-- The commands. A frame kind's constructor is the good receipt of a frame of that kind. -/
inductive Instr where
  /-- FULL_RESET (R156): power-on or the RESET pin, with the pin levels sampled. -/
  | fullReset (pins : Straps)
  /-- FILTERED_LEVEL_CHANGE (R5) of one channel. -/
  | filteredLevelChange (ch : Chan)
  /-- SAMPLE_BOUNDARY (R9), with the order in which the consumers take the element. -/
  | sampleBoundary (sched : List Consumer)
  /-- STAGING_WRITE (R23). -/
  | stagingWrite
  /-- STAGE_TIMER_EXPIRY (R66). -/
  | stageTimerExpiry
  /-- MARK_EDGE (R79): MRX registered high (`rising`) or low. `noticeLate`: an element, cue or expiry of the same tick
  reaches the sequencer before the notice of a trigger this edge causes (R69). -/
  | markEdge (rising : Bool) (noticeLate : Bool)
  /-- MARK_PULSE_END (R83). -/
  | markPulseEnd
  /-- EDGE_WAIT_END (R85). -/
  | edgeWaitEnd
  /-- WINDOW_CLOSE (R89). -/
  | windowClose
  /-- TRIG_OUT_END (R93). -/
  | trigOutEnd
  /-- FEED_TIMEOUT (R129) of one queue's feed. -/
  | feedTimeout (q : QueueId)
  /-- TIME_NOTE_DUE (R163). -/
  | timeNoteDue
  /-- PLACE_GRANTED (R147). -/
  | placeGranted
  /-- BUS_FREE (R141). -/
  | busFree
  /-- TRANSMIT_START (R141); `won` is false where the contention of the arbitration field is lost (R142). -/
  | transmitStart (won : Bool)
  /-- FRAME_SENT (R144), with the stamp of the own frame's start edge. -/
  | frameSent (stamp : StationTime)
  /-- FRAME_UNHEARD (R144). -/
  | frameUnheard
  /-- FRAME_SPOILED (R145). -/
  | frameSpoiled
  /-- FRAME_RECEIVE_ERROR (R145). -/
  | frameReceiveError
  /-- REJOIN_TIMER_EXPIRY (R154). -/
  | rejoinTimerExpiry
  /-- JOIN_COMPLETE (R153). -/
  | joinComplete
  /-- BUS_BREAK (R155). -/
  | busBreak
  /-- PLAN_PART (R39). -/
  | planPart (f : RxFrame)
  /-- ARM (R43). -/
  | arm (f : RxFrame)
  /-- HALT (R48). -/
  | halt (f : RxFrame)
  /-- RESTART (R50). -/
  | restart (f : RxFrame)
  /-- TIME_NOTE (R164). -/
  | timeNote (f : RxFrame)
  /-- ROLL_CALL (R162). -/
  | rollCall (f : RxFrame)
  /-- MARK_NOTE (R91). -/
  | markNote (f : RxFrame)
  /-- PRESENCE_TIMEOUT (R160) of one peer. -/
  | presenceTimeout (p : Station)
  /-- STATUS_NOTE (R188). -/
  | statusNote (f : RxFrame)
  /-- REDUCE_ASK (R170). -/
  | reduceAsk (f : RxFrame)
  /-- WORDS_ASK (R170). -/
  | wordsAsk (f : RxFrame)
  /-- STATUS_ASK (R181). -/
  | statusAsk (f : RxFrame)
  /-- STOP (R179). -/
  | stop (f : RxFrame)
  /-- WORDS_NOTE (R143). -/
  | wordsNote (f : RxFrame)
  /-- ASK_SERVICE_START (R171). -/
  | askServiceStart
  /-- VIEW_PART (R186): LANES or WINDOW, and any part identity that is not GO. -/
  | viewPart (f : RxFrame)
  /-- VIEW_GO (R188): a VIEW_PART whose part identity is GO. -/
  | viewGo (f : RxFrame)
  /-- RUNS (R191). -/
  | runs (f : RxFrame)
  /-- BOXES (R191). -/
  | boxes (f : RxFrame)
  /-- FETCH_DEADLINE (R190) of one lane. -/
  | fetchDeadline (lane : Fin 16)
  /-- REASK_TIMER (R190) of one lane. -/
  | reaskTimer (lane : Fin 16)
  /-- PUSH_END (R197). -/
  | pushEnd
  /-- COMPARATOR_STATE_CHANGE (R3): the probe input of a channel moves to a voltage, in microvolts. -/
  | comparatorStateChange (ch : Chan) (microvolts : Int)
  /-- ERROR_SIGNALLING_END (R145). -/
  | errorSignallingEnd
  /-- BREAK_END (R155). -/
  | breakEnd
  deriving DecidableEq, Repr

end Sys2Proof
end

