-- ==== Sys2Proof/Decode.lean ====
section
/-! DEFINITION. The table of the OB1624's commands (spec/opcode_table.json) gives no row any bits: no row is "fixed" or
has "fields". A word therefore spells no command. How a frame's own bits are read is Machine/Wire.lean and
Machine/Operands.lean. -/

namespace Sys2Proof

/-- The command that a word of the table's bits spells: none, since the table gives no row any bits. -/
def decodeTableWord (_nbits _w : Nat) : Option Instr := none

end Sys2Proof
end

