-- ==== Sys2Proof/Machine/State.lean ====
section
/-! DEFINITION. The state of the OB1624 as plain data, block by block (1.3 of 00_scope.md), the reasons a step can
stop, and the state right after a full reset. A field marked MODEL is the model's own and not the manual's. -/

namespace Sys2Proof.Machine

/-! ## The plan (chapter 3, R202) -/

/-- Role of a station on MARK (chapter 5). -/
inductive Role where
  | solo
  | lead
  | follow
  deriving DecidableEq, Repr

/-- Sense of MARK (chapter 5). -/
inductive Sense where
  | any
  | all
  deriving DecidableEq, Repr

/-- The GENERAL part, identity 0 (R42, R202). -/
structure General where
  rate : BitVec 4
  /-- segment count code: S = 2 ^ code -/
  segCode : BitVec 2
  /-- post fraction, 1 to 8 eighths -/
  p : Nat
  /-- post time in units of 4,096 ticks, 0 for none -/
  postTime : Nat
  prefill : Bool
  role : Role
  sense : Sense
  /-- hold window H, in units of 16 ticks -/
  hold : Nat
  threshold : Vector (BitVec 8) 2
  hysteresis : Vector (BitVec 2) 2
  deglitch : Vector (BitVec 2) 2
  stageCount : Nat
  deriving DecidableEq, Repr

/-- Direction of an EDGE condition (4.4). -/
inductive EdgeDir where
  | rising
  | falling
  | either
  deriving DecidableEq, Repr

/-- A stage's condition kind with its parameters (4.4); a kind code of 5 to 255 is held as it was written (R55). -/
inductive Cond where
  | pattern (mask value : ChanSet)
  | edge (set : ChanSet) (dir : EdgeDir)
  | glitch (set : ChanSet)
  | pulse (ch : Chan) (high : Bool) (min max : Nat)
  | cue (entry : BitVec 5)
  | unassigned (code : Byte)
  deriving DecidableEq, Repr

/-- A STAGE part (R55). -/
structure Stage where
  cond : Cond
  /-- occurrences N that satisfy the stage -/
  n : Nat
  /-- timeout T in units of 256 ticks, 0 for none -/
  timeout : Nat
  /-- on-satisfied is FIRE (else NEXT) -/
  satisfiedFires : Bool
  /-- on-timeout is FIRE (else RESTART) -/
  timeoutFires : Bool
  deriving DecidableEq, Repr

/-- Parity of a UART decoder (6.3). -/
inductive Parity where
  | none
  | even
  | odd
  deriving DecidableEq, Repr

/-- UART parameters (6.3). -/
structure UartCfg where
  ch : Chan
  /-- bit time in sixteenths of a tick -/
  bit16 : Nat
  dataBits : Nat
  parity : Parity
  twoStops : Bool
  idleHigh : Bool
  /-- gap threshold G in bit times, 0 for no GAP words -/
  gap : Nat
  deriving DecidableEq, Repr

/-- SPI parameters (6.4). -/
structure SpiCfg where
  clock : Chan
  falling : Bool
  dataOut : Option Chan
  dataIn : Option Chan
  select : Option Chan
  activeHigh : Bool
  length : Nat
  lsbFirst : Bool
  resync : Nat
  deriving DecidableEq, Repr

/-- BMC parameters (6.6). -/
structure BmcCfg where
  ch : Chan
  halfMin : Nat
  halfMax : Nat
  fullMin : Nat
  fullMax : Nat
  deriving DecidableEq, Repr

/-- Kind of a decoder unit with that kind's parameters (R96). -/
inductive DecCfg where
  | off
  | uart (c : UartCfg)
  | spi (c : SpiCfg)
  | i2c (scl sda : Chan)
  | bmc (c : BmcCfg)
  deriving DecidableEq, Repr

/-- Where the word filter sends a word (R119). -/
inductive Dest where
  | queue (q : QueueId)
  | latch (slot : BitVec 4)
  | discard
  deriving DecidableEq, Repr

/-- A DECODER part: the unit and its default destination (R96, R117). -/
structure DecPart where
  cfg : DecCfg
  dest : Dest
  deriving DecidableEq, Repr

/-- Match rule of a filter entry (R118). -/
inductive MatchRule where
  | range
  | pair
  | mask
  deriving DecidableEq, Repr

/-- One filter entry (R118). -/
structure FilterEntry where
  enabled : Bool
  cue : Bool
  /-- the field selector names VALUE2 -/
  value2 : Bool
  rule : MatchRule
  decoders : BitVec 4
  kinds : BitVec 16
  v1 : BitVec 16
  v2 : BitVec 16
  dest : Dest
  deriving DecidableEq, Repr

/-- Settings of one live feed (R127); no target means broadcast. -/
structure FeedCfg where
  enabled : Bool
  target : Option Station
  /-- level code: 1, 4, 8 or 16 words -/
  levelCode : BitVec 2
  /-- timeout T in units of 4,096 ticks -/
  timeout : Nat
  deriving DecidableEq, Repr

/-- One queue's half of the QUEUES part (R121, R127). -/
structure QueueCfg where
  capacity : Nat
  overwrite : Bool
  feed : FeedCfg
  deriving DecidableEq, Repr

/-- A plan: its sixteen parts (3.2). -/
structure Plan where
  general : General
  stages : Vector Stage 4
  decoders : Vector DecPart 4
  filters : Vector FilterEntry 24
  qa : QueueCfg
  qb : QueueCfg
  deriving DecidableEq, Repr

/-! ## Front end (chapter 1) -/

/-- The front end (chapter 1, R13). -/
structure FrontEnd where
  /-- bank presence (R1) -/
  present : Vector Bool 2
  /-- the rate code in force (R11) -/
  rate : BitVec 4
  threshold : Vector (BitVec 8) 2
  hysteresis : Vector (BitVec 2) 2
  deglitch : Vector (BitVec 2) 2
  /-- MODEL (log entry 7): the voltage at each probe input, in microvolts -/
  probe : Vector Int 16
  /-- MODEL: the threshold codes the comparators' switch points were last set from (R12: from the next tick) -/
  switchThreshold : Vector (BitVec 8) 2
  /-- MODEL: the hysteresis codes the comparators' switch points were last set from -/
  switchHysteresis : Vector (BitVec 2) 2
  /-- comparator state of each channel, not reset (R3) -/
  comparator : ChanSet
  /-- comparator state as registered at the last tick edge (R4) -/
  registered : ChanSet
  /-- filtered level of each channel (R5) -/
  filtered : ChanSet
  /-- hold count of each channel, 0 to 3 (R5) -/
  hold : Vector (BitVec 2) 16
  /-- MODEL: the channels whose filtered level is to change at this tick (third case of R5) -/
  changing : ChanSet
  /-- change count of each channel, 0, 1 or 2 (R8) -/
  changes : Vector (Fin 3) 16
  /-- level set of the last boundary delivered (R7) -/
  lastLevels : ChanSet
  /-- the activity mask (R10) -/
  activity : ChanSet
  /-- the next sample boundary (R6, R12) -/
  nextBoundary : StationTime
  /-- the last boundary delivered (R67) -/
  lastBoundary : Option StationTime
  deriving DecidableEq, Repr

/-! ## Capture store (chapter 2) -/

/-- A capture record (R16, R200). -/
structure Rec where
  delta : BitVec 16
  levels : ChanSet
  glitch : ChanSet
  first : Bool
  trigger : Bool
  filler : Bool
  merged : Bool
  deriving DecidableEq, Repr

/-- What caused a trigger (R68, R80, R200). -/
inductive Cause where
  /-- source SEQUENCER: stage, ending EXPIRED (else SATISFIED), the kind code held, the cue entry -/
  | sequencer (stage : Fin 4) (expired : Bool) (kind : Byte) (entry : Option (Fin 24))
  /-- source MARK, with the peer's number once known -/
  | mark (peer : Option Station)
  deriving DecidableEq, Repr

/-- Life stage of a segment (2.2). -/
inductive SegState where
  | empty
  | filling
  | post
  | complete
  | cut
  deriving DecidableEq, Repr

/-- A segment header (2.2). Its index is its place in the list of headers. -/
structure SegHeader where
  state : SegState
  base : StationTime
  count : Nat
  oldest : Nat
  trigTime : Option StationTime
  cause : Option Cause
  causeTime : Option StationTime
  postRemaining : Option Nat
  deadline : Option StationTime
  close : Option StationTime
  merged : Nat
  lateMarks : Nat
  lateFires : Nat
  /-- MODEL: the state the segment takes once its last staged record is written (R31, R32) -/
  ending : Option SegState
  deriving DecidableEq, Repr

/-- A record waiting in the staging FIFO with the number of its segment (R20). -/
structure Staged where
  seg : Fin 8
  rcd : Rec
  deriving DecidableEq, Repr

/-- The values the store takes at ARM (R15). -/
structure Layout where
  segCode : BitVec 2
  rate : BitVec 4
  p : Nat
  postTime : Nat
  deriving DecidableEq, Repr

/-- The recorder reference (R17): time and levels of the segment's last record. -/
structure Reference where
  time : StationTime
  levels : ChanSet
  deriving DecidableEq, Repr

/-- The segment between its start and its close (R17): its number, its start boundary, and the last boundary whose
element was taken for it, absent until the start boundary is taken. -/
structure Current where
  seg : Fin 8
  start : StationTime
  taken : Option StationTime
  deriving DecidableEq, Repr

/-- A trigger offer (R80): the trigger time, the cause and the cause time, and whether it comes from an edge (else from
a fire). -/
structure Offer where
  time : StationTime
  cause : Cause
  causeTime : StationTime
  edge : Bool
  deriving DecidableEq, Repr

/-- An offer that waits for the element of its tick (R80), with whether the notice of the trigger it may cause is to reach
the sequencer late (R69). -/
structure HeldOffer where
  offer : Offer
  late : Bool
  deriving DecidableEq, Repr

/-- The capture store (chapter 2, R35). -/
structure Store where
  /-- the record memory: place and record, places strictly rising, a place not listed holds no record -/
  mem : List (Nat × Rec)
  headers : Vector SegHeader 8
  /-- the staging FIFO, oldest first -/
  fifo : List Staged
  /-- MODEL: ticks still to pass before the next write is allowed (R23) -/
  writeWait : Nat
  layout : Option Layout
  reference : Option Reference
  current : Option Current
  /-- MODEL (log entry 52): offers of this tick that wait for the store to take the tick's element, oldest first (R80) -/
  offers : List HeldOffer
  mergedSeen : Bool
  deriving DecidableEq, Repr

/-! ## Frames this station sends (chapter 8) -/

/-- A frame as its originator places it (R139); the source is this station and the length is the payload's. -/
structure TxFrame where
  kind : BitVec 4
  dst : Station
  bcast : Bool
  payload : List Byte
  deriving DecidableEq, Repr

/-- Who placed a frame and what it belongs to, so that its result reaches its originator (R150). -/
inductive Origin where
  | markUnit
  | timeNote
  | rollCall
  | session
  | feed (q : QueueId)
  /-- a part of the reply to the ask table entry with this id (R177) -/
  | askPart (entry : Nat)
  /-- a refusal or GONE frame of the ask service (R170, R171, R180) -/
  | askRefusal
  /-- a part of a status reply, or a selector refusal (R181) -/
  | askStatus
  /-- a REDUCE_ASK or WORDS_ASK of the view engine, by its tag (R189) -/
  | viewAsk (tag : Byte)
  | viewStop
  | viewNote
  deriving DecidableEq, Repr

/-- A frame in the transmit queue (R146); `id` is the model's own name for it and rises with the order of placing. -/
structure QEntry where
  id : Nat
  origin : Origin
  frame : TxFrame
  deriving DecidableEq, Repr

/-- A frame, or the content of one, that an originator holds until it is given a place (R147, R148), with the order
number from which its wait is counted. -/
structure Held where
  since : Nat
  origin : Origin
  frame : TxFrame
  deriving DecidableEq, Repr

/-! ## Session control (chapter 3) -/

/-- Session state (3.1). -/
inductive SessState where
  | idle
  | armed
  | triggered
  | done
  | aborted
  deriving DecidableEq, Repr

/-- Kind of a note of the session (3.6). -/
inductive NoteKind where
  | change
  | refusal
  | closure
  deriving DecidableEq, Repr

/-- A note produced and not yet placed (R51), its content fixed when it was produced. -/
structure Note where
  kind : NoteKind
  held : Held
  deriving DecidableEq, Repr

/-- Session control (chapter 3). -/
structure Session where
  draft : Plan
  active : Option Plan
  state : SessState
  k : Option (Fin 8)
  /-- the current segment has become ready (R45) -/
  ready : Bool
  /-- notes waiting, in order of production (R51) -/
  notes : List Note
  /-- notes returned from the transmit queue (R150), in the order they were produced (R51, log entry 14) -/
  returned : List Held
  deriving DecidableEq, Repr

/-! ## Trigger sequencer (chapter 4) -/

/-- Sequencer state (4.2). -/
inductive SeqState where
  | stopped
  | waiting
  | running
  | fired
  | parked
  deriving DecidableEq, Repr

/-- How the current stage was entered (R58): at a boundary, or at a tick not tied to one. -/
inductive StageEntry where
  | atBoundary (b : StationTime)
  | atTick
  deriving DecidableEq, Repr

/-- The trigger sequencer (chapter 4, R76). -/
structure Sequencer where
  stages : Option (Vector Stage 4)
  stageCount : Nat
  state : SeqState
  stage : Fin 4
  count : Nat
  /-- expiry of the stage timer, absent when it is stopped (R66) -/
  timer : Option StationTime
  patternFlag : Bool
  entry : StageEntry
  /-- copy of the level set of the last boundary delivered (R57) -/
  levels : ChanSet
  /-- last-change time of each channel (R57) -/
  lastChange : Vector (Option StationTime) 16
  /-- MODEL (log entry 8): a trigger notice has been sent to the sequencer and not yet received (R69) -/
  noticeWaiting : Bool
  deriving DecidableEq, Repr

/-- A fire handed to the mark unit (R67). -/
structure Fire where
  seg : Fin 8
  cause : Cause
  causeTime : StationTime
  boundary : StationTime
  /-- the stage that fired has a PATTERN condition, true at the fire boundary (R70, R88; log entry 53) -/
  lasting : Bool
  deriving DecidableEq, Repr

/-! ## Mark unit (chapter 5) -/

/-- Mark state (5.1). -/
inductive MarkState where
  | off
  | watch
  | pulse
  | hold
  | opened
  deriving DecidableEq, Repr

/-- An entry of the mark edge list (R79). -/
structure MarkEdge where
  stamp : StationTime
  rising : Bool
  deriving DecidableEq, Repr

/-- Role, sense and hold window, taken at ARM (R77). -/
structure MarkCfg where
  role : Role
  sense : Sense
  hold : Nat
  deriving DecidableEq, Repr

/-- The mark unit (chapter 5, R95). -/
structure MarkUnit where
  cfg : Option MarkCfg
  state : MarkState
  /-- MODEL (log entry 26): a fire handed to the unit and not yet taken by it (R67, R74) -/
  handed : Option Fire
  /-- the fire it is acting on (R83, R88) -/
  fire : Option Fire
  /-- end of the pulse in progress (R83) -/
  pulseEnd : Option StationTime
  /-- end of the edge wait in progress (R83) -/
  waitEnd : Option StationTime
  /-- closing time of a LEAD's window (R88) -/
  closing : Option StationTime
  /-- the window is held open by a true pattern (R88) -/
  heldOpen : Bool
  /-- the last four MARK edges, oldest first (R79) -/
  edges : List MarkEdge
  missed : Nat
  missedSeen : Bool
  /-- level at MRX as registered at the last tick, `true` for high (R79) -/
  mrx : Bool
  /-- MODEL: an edge has been registered at this tick -/
  edgeThisTick : Bool
  /-- end of the TRIG_OUT pulse in progress; the pin is high while it is present (R93) -/
  trigOutEnd : Option StationTime
  deriving DecidableEq, Repr

/-! ## Decoder units (chapter 6) -/

/-- Word kinds (R98). -/
inductive WKind where
  | start
  | address
  | data
  | ack
  | nack
  | stop
  | gap
  | brk
  | sync
  | fin
  | error
  deriving DecidableEq, Repr

/-- Flags of a word (R98). -/
structure WFlags where
  parity : Bool
  framing : Bool
  short : Bool
  undersampled : Bool
  glitched : Bool
  acked : Bool
  deriving DecidableEq, Repr

/-- A word record (R98). -/
structure Word where
  decoder : Fin 4
  kind : WKind
  value : BitVec 16
  value2 : Option (BitVec 16)
  start : StationTime
  stop : StationTime
  flags : WFlags
  matched : Option (Fin 24)
  seg : Fin 8
  deriving DecidableEq, Repr

/-- Bits of a UART frame gathered so far (R103). -/
structure UartFrame where
  start : StationTime
  /-- index i of the next bit -/
  next : Nat
  value : BitVec 16
  /-- number of 1s among the data bits and the parity bit -/
  ones : Nat
  /-- the parity bit was not correct -/
  parityBad : Bool
  /-- the first stop bit was at the non-idle level -/
  firstStopBad : Bool
  /-- the channel was sampled idle at some boundary from `start` on -/
  sawIdle : Bool
  deriving DecidableEq, Repr

/-- State of a UART machine (R102). -/
inductive UartPhase where
  /-- `startsGap`: entered after a FRAMING or BREAK word -/
  | waitIdle (startsGap : Bool)
  | hunt
  | frame (f : UartFrame)
  deriving DecidableEq, Repr

/-- Assembly state of a UART unit (R102–R105). -/
structure UartSt where
  phase : UartPhase
  /-- start of the running gap timer (R105) -/
  gapStart : Option StationTime
  deriving DecidableEq, Repr

/-- State of an SPI unit's select (R107). -/
inductive SelState where
  | deselected
  | selected
  | waitDeselect
  /-- there is no select channel -/
  | none
  deriving DecidableEq, Repr

/-- The shortest measured half-period of a word in hand (R101): the last clock change of the word and the shortest
time between two successive ones. -/
structure HalfPeriod where
  last : Option StationTime
  shortest : Option Int
  deriving DecidableEq, Repr

/-- Assembly state of an SPI unit (R106–R108). -/
structure SpiSt where
  sel : SelState
  count : Nat
  value : BitVec 16
  value2 : BitVec 16
  first : StationTime
  /-- boundary of the clock channel's last sampled change (R108) -/
  lastClock : StationTime
  half : HalfPeriod
  deriving DecidableEq, Repr

/-- Assembly state of an I2C unit (R109–R111). -/
structure I2cSt where
  inside : Bool
  /-- the next byte is the first since the last START -/
  addressNext : Bool
  count : Nat
  value : BitVec 8
  first : StationTime
  half : HalfPeriod
  deriving DecidableEq, Repr

/-- A BMC byte in hand (R115). -/
structure BmcByte where
  count : Nat
  value : BitVec 8
  first : StationTime
  deriving DecidableEq, Repr

/-- Phase of a BMC unit (R114, R115). -/
inductive BmcPhase where
  | hunt (alternations : Nat) (lastBit : Bool) (preamble : StationTime)
  | frame (byte : BmcByte)
  deriving DecidableEq, Repr

/-- Assembly state of a BMC unit (R112–R115). -/
structure BmcSt where
  phase : BmcPhase
  lastTransition : Option StationTime
  /-- idle has been found since the last transition -/
  idleFound : Bool
  /-- the half-pending mark, with the transition that began the pending half -/
  halfPending : Option StationTime
  deriving DecidableEq, Repr

/-- Assembly state by kind (6.1). -/
inductive Assembly where
  /-- no element has been taken since the accepted ARM, or the unit is stopped or OFF -/
  | fresh
  | uart (u : UartSt)
  | spi (u : SpiSt)
  | i2c (u : I2cSt)
  | bmc (u : BmcSt)
  deriving DecidableEq, Repr

/-- A decoder unit (6.1). -/
structure DecUnit where
  /-- active configuration, absent before the first ARM (R116) -/
  cfg : Option DecPart
  /-- UNDERSAMPLED as decided once per session for UART and BMC (R101) -/
  undersampled : Bool
  assembly : Assembly
  /-- copy of the level set of the last element taken -/
  levels : ChanSet
  /-- the last boundary at which a channel the unit reads was in the glitch set (R100) -/
  lastGlitch : Option StationTime
  deriving DecidableEq, Repr

/-- The four decoder units (chapter 6). -/
structure Decoders where
  units : Vector DecUnit 4
  /-- from an accepted ARM until the session is DONE or ABORTED (R97) -/
  running : Bool
  undersampledSeen : Bool
  deriving DecidableEq, Repr

/-! ## Word filter and word memory (chapter 7) -/

/-- State of a feed (R127). -/
inductive FeedState where
  | off
  | quiet
  | collecting
  | draining
  deriving DecidableEq, Repr

/-- A live feed (7.4). -/
structure Feed where
  cfg : Option FeedCfg
  state : FeedState
  timer : Option StationTime
  /-- returned frames, in the order they were built (R131, log entry 18) -/
  returned : List TxFrame
  /-- note sequence (R130) -/
  seq : Byte
  /-- order number from which the feed's present wait for a place is counted (R147) -/
  since : Nat
  deriving DecidableEq, Repr

/-- A word queue with its feed (7.2, 7.4). -/
structure WQueue where
  capacity : Nat
  overwrite : Bool
  /-- oldest first -/
  words : List Word
  /-- the cursor: how many words, from the head, are fed (R128) -/
  fed : Nat
  feed : Feed
  /-- the four counters of the queue (R133), modulo 2^32 -/
  enqueued : BitVec 32
  overwritten : BitVec 32
  trimmed : BitVec 32
  feedMissed : BitVec 32
  deriving DecidableEq, Repr

/-- A latch slot (R125). -/
structure Latch where
  word : Option Word
  isNew : Bool
  overrun : Nat
  deriving DecidableEq, Repr

/-- The word filter and the word memory (chapter 7, R136). -/
structure Words where
  /-- the active filter entries, absent before the first ARM -/
  filters : Option (Vector FilterEntry 24)
  qa : WQueue
  qb : WQueue
  latches : Vector Latch 8
  completed : BitVec 32
  discarded : BitVec 32
  lost : BitVec 32
  latched : BitVec 32
  trimmedAtCompletion : BitVec 32
  feedMissedSeen : Bool
  latchOverrunSeen : Bool
  deriving DecidableEq, Repr

/-! ## Pod bus controller (chapter 8) -/

/-- Link state (R152). -/
inductive LinkState where
  | joining
  | normal
  | cautious
  | detached
  | duplicate
  deriving DecidableEq, Repr

/-- Line state of DATA (R141). -/
inductive LineState where
  | wait
  | free
  | frame
  | brk
  deriving DecidableEq, Repr

/-- The pod bus controller (chapter 8, R156). -/
structure Bus where
  /-- the strapped station number, bit rate, cadence and panel present (R137) -/
  own : Station
  rate : BitVec 2
  cadence : BitVec 2
  panel : Bool
  /-- MODEL (log entry 9): the level at DRX now, set from outside; `true` is recessive -/
  drxPin : Bool
  /-- the level at DRX as registered at the last tick (R138) -/
  drx : Bool
  /-- start of the bit in progress (R138) -/
  bitStart : StationTime
  /-- this station drives DATA dominant -/
  dtxDominant : Bool
  /-- line state; none while JOINING (R141) -/
  line : Option LineState
  /-- consecutive recessive bits counted in WAIT (R141) -/
  recessiveRun : Nat
  /-- consecutive dominant bits sampled (R155) -/
  dominantRun : Nat
  /-- a break has been taken and no recessive bit sampled since (R155) -/
  inBreak : Bool
  joinCount : Nat
  /-- receive assembly: the bits of the frame in progress as sampled, start bit first, stuff bits included -/
  rxBits : List Bool
  /-- stamp of the start edge of the frame in progress (R158) -/
  startStamp : Option StationTime
  /-- an error has been found in the frame in progress (R145) -/
  errorFound : Bool
  /-- bits of the own error flag still to be driven (R145) -/
  flagBits : Nat
  /-- the transmit queue, in its order (R146) -/
  queue : List QEntry
  /-- the queued frame that is on the wire -/
  onWire : Option Nat
  score : Nat
  link : LinkState
  /-- expiry of the rejoin timer (R154) -/
  rejoin : Option StationTime
  deriving DecidableEq, Repr

/-! ## Peer table (chapter 9) -/

/-- Details from a peer's last ROLL_CALL (9.2). -/
structure RollDetails where
  /-- the banks fitted, bit n for bank n (DESIGN CHOICE, log entry 70) -/
  banks : BitVec 2
  panel : Bool
  cadence : Byte
  part : BitVec 16
  deriving DecidableEq, Repr

/-- An anchor (R164): the peer's stamp and this station's stamp of one note edge. -/
structure Anchor where
  remote : StationTime
  loc : StationTime
  deriving DecidableEq, Repr

/-- The note chain (9.2). -/
structure Chain where
  seq : Byte
  stamp : StationTime
  deriving DecidableEq, Repr

/-- A peer's last fire (R91). -/
structure LastFire where
  seg : Byte
  stamp : StationTime
  deriving DecidableEq, Repr

/-- A peer record (9.2). -/
structure Peer where
  present : Bool
  timer : Option StationTime
  details : Option RollDetails
  chain : Option Chain
  current : Option Anchor
  base : Option Anchor
  skew : Int
  skewValid : Bool
  drift : Bool
  lastFire : Option LastFire
  deriving DecidableEq, Repr

/-- A ROLL_CALL that is due (R161): since when it waits, and whether every cause was an answer. -/
structure RollDue where
  since : Nat
  answer : Bool
  deriving DecidableEq, Repr

/-- The peer table (chapter 9, R169). -/
structure PeerTable where
  peers : Vector Peer 8
  /-- next TIME_NOTE sequence (R163) -/
  nextSeq : Byte
  /-- stamp of the last note actually sent (R163) -/
  lastSent : Option StationTime
  /-- MODEL: the cadence bit has toggled at this tick and the note is not yet made -/
  noteDue : Bool
  /-- a due note waits for the result of the one on the wire (R148) -/
  noteWaiting : Bool
  /-- a returned TIME_NOTE (R163) -/
  noteReturned : Option Held
  rollDue : Option RollDue
  deriving DecidableEq, Repr

/-! ## Ask service (chapter 10) -/

/-- Outcome codes (R200). -/
inductive OutcomeCode where
  | ok
  | busy
  | range
  | live
  | gone
  | noSession
  | noPanel
  | badPart
  deriving DecidableEq, Repr

/-- Class of a column (R173). -/
inductive ColClass where
  | low
  | high
  | toggle
  | none
  deriving DecidableEq, Repr

/-- A run (R174). -/
structure Run where
  cls : ColClass
  glitch : Bool
  length : Nat
  deriving DecidableEq, Repr

/-- A box (R175); `kind` is a word kind code. -/
structure Box where
  first : Nat
  last : Nat
  kind : Byte
  value : Nat
  clipL : Bool
  clipR : Bool
  error : Bool
  dense : Bool
  more : Bool
  deriving DecidableEq, Repr

/-- What a part carries: runs for REDUCE, boxes for WORDS (R177). -/
inductive PartData where
  | runs (l : List Run)
  | boxes (l : List Box)
  deriving DecidableEq, Repr

/-- A reply part (R177). -/
structure Part where
  tag : Byte
  outcome : OutcomeCode
  index : Nat
  first : Nat
  last : Bool
  absent : Bool
  data : PartData
  deriving DecidableEq, Repr

/-- An entry of the ask table (10.1). -/
structure AskEntry where
  /-- MODEL: the entry's own name, by which its frames are known -/
  id : Nat
  asker : Station
  own : Bool
  tag : Byte
  /-- kind WORDS (else REDUCE) -/
  words : Bool
  seg : Byte
  index : Byte
  /-- S', the station time of the first column boundary -/
  start : StationTime
  w : Nat
  /-- k', the column spacing correction -/
  k : Int
  /-- W, the number of columns -/
  columns : Nat
  serving : Bool
  /-- the reply as computed when the entry was taken into service -/
  parts : List Part
  placed : Nat
  sent : Nat
  /-- order number at which the next part became ready (R177) -/
  readySince : Nat
  deriving DecidableEq, Repr

/-- A pending refusal or GONE frame (10.1). -/
structure Refused where
  asker : Station
  tag : Byte
  busy : Bool
  held : Held
  deriving DecidableEq, Repr

/-- What a STATUS_ASK asked for (R181). -/
inductive Selector where
  | summary
  | latches
  /-- a selector code that is neither -/
  | other
  deriving DecidableEq, Repr

/-- A pending status reply (R181); the frames still to be placed once it is composed. -/
structure StatusReply where
  asker : Station
  selector : Selector
  since : Nat
  composed : Option (List TxFrame)
  deriving DecidableEq, Repr

/-- The ask service (chapter 10, R184). -/
structure AskService where
  /-- the ask table, in order of arrival -/
  table : List AskEntry
  refusals : List Refused
  status : List StatusReply
  /-- frames returned from the transmit queue (R177), the one displaced last first (log entry 60) -/
  returned : List Held
  deriving DecidableEq, Repr

/-! ## View engine and panel port (chapter 11) -/

/-- A lane of the view plan (R186). -/
structure Lane where
  used : Bool
  decoder : Bool
  station : Station
  index : Byte
  label : Vector Byte 6
  deriving DecidableEq, Repr

/-- The WINDOW part (R186). -/
structure Window where
  seg : Fin 8
  zero : Station
  /-- start offset, a signed 48-bit number of ticks -/
  offset : StationTime
  w : Nat
  cursorA : Option Nat
  cursorB : Option Nat
  backlight : BitVec 4
  deriving DecidableEq, Repr

/-- State of a fetch entry (R189). -/
inductive FetchState where
  | waiting
  | pending
  | done
  | failed
  deriving DecidableEq, Repr

/-- Banner of a FAILED lane (R194). -/
inductive Banner where
  | noLink
  | noSync
  | busy
  | range
  | live
  | gone
  | noSession
  deriving DecidableEq, Repr

/-- A fetch entry (R189). -/
structure Fetch where
  tag : Byte
  station : Station
  decoder : Bool
  state : FetchState
  reasks : Nat
  deadline : Option StationTime
  /-- expiry of the re-ask timer (R190) -/
  reaskAt : Option StationTime
  /-- the ask of a remote lane, made again on a re-ask -/
  ask : Option TxFrame
  nextPart : Nat
  nextCol : Nat
  runs : List Run
  boxes : List Box
  absent : Bool
  banner : Option Banner
  deriving DecidableEq, Repr

/-- How far a pass has come (R192). -/
inductive PassPhase where
  | collecting
  /-- complete, waiting for the push in progress to end -/
  | complete
  | drawn
  deriving DecidableEq, Repr

/-- A render pass with its copy of the view plan and its time zero (R188). -/
structure Pass where
  lanes : Vector Lane 16
  window : Window
  zero : Option StationTime
  phase : PassPhase
  deriving DecidableEq, Repr

/-- The view engine and the panel port (chapter 11, R198). -/
structure View where
  lanes : Vector Lane 16
  window : Window
  generation : BitVec 4
  pass : Option Pass
  fetch : Vector (Option Fetch) 16
  /-- ask frames made, or returned, and waiting for room, in the order they were made (R189) -/
  asks : List Held
  /-- STOP frames made, or returned, and waiting for room (R190) -/
  stops : List Held
  /-- the NO_PANEL refusal waiting for room (R185) -/
  note : Option Held
  /-- the frame buffer: address and byte, addresses strictly rising, a byte not listed is 0 (background) -/
  buffer : List Host.Cell
  /-- first tick of the push in progress; the port is IDLE when absent (R197) -/
  push : Option StationTime
  /-- backlight level in force in the present PWM period (R197) -/
  blLevel : BitVec 4
  /-- tick of the present PWM period, 0 to 15,359 -/
  blPhase : Nat
  deriving DecidableEq, Repr

/-! ## The machine -/

end Sys2Proof.Machine

namespace Sys2Proof.Machine

/-- The whole state of one OB1624. -/
structure State where
  /-- the commands that are waiting, the next one first -/
  pending : List Instr
  /-- station time (R157) -/
  time : StationTime
  /-- MODEL (log entry 9): the levels at the strap and bank sense pins now, set from outside -/
  pins : Straps
  frontEnd : FrontEnd
  store : Store
  session : Session
  sequencer : Sequencer
  mark : MarkUnit
  decoders : Decoders
  words : Words
  bus : Bus
  peers : PeerTable
  asks : AskService
  view : View
  /-- MODEL (log entry 10): number of the next frame, note or entry made, so that waits can be compared (R147) -/
  order : Nat
  /-- MODEL (log entries 4, 5): number of the next choice the manual leaves open -/
  choice : Nat
  deriving DecidableEq, Repr

/-- A command of the OB1624 never faults: the manual gives every one of its steps an effect. -/
inductive Fault where
  deriving DecidableEq, Repr

/-- Why a command has no meaning in this model. -/
inductive Refusal where
  /-- raised by an arm of `exec` whose command has no meaning yet; safe, since nothing is claimed of it. No arm is left
  so in this model. -/
  | notModelled (mnemonic : String)
  deriving DecidableEq, Repr

/-! ## After a full reset -/

/-- The default GENERAL part (R42). -/
def General.default : General where
  rate := 2
  segCode := 0
  p := 4
  postTime := 0
  prefill := false
  role := .solo
  sense := .any
  hold := 16
  threshold := Vector.replicate 2 80
  hysteresis := Vector.replicate 2 1
  deglitch := Vector.replicate 2 0
  stageCount := 1

/-- The default STAGE part (R42). -/
def Stage.default : Stage where
  cond := .edge 0xFFFF .either
  n := 1
  timeout := 0
  satisfiedFires := true
  timeoutFires := false

/-- A filter entry of the default plan: disabled (R42). DESIGN CHOICE (log entry 54): the manual gives no value to the
other fields of a disabled entry, and here they are RANGE, 0, empty sets and queue A. -/
def FilterEntry.default : FilterEntry where
  enabled := false
  cue := false
  value2 := false
  rule := .range
  decoders := 0
  kinds := 0
  v1 := 0
  v2 := 0
  dest := .queue .a

/-- The default half of the QUEUES part (R42). -/
def QueueCfg.default : QueueCfg where
  capacity := 512
  overwrite := false
  feed := { enabled := false, target := none, levelCode := 1, timeout := 16 }

/-- The draft plan after a full reset (R42). -/
def Plan.default : Plan where
  general := General.default
  stages := Vector.replicate 4 Stage.default
  decoders := Vector.replicate 4 { cfg := .off, dest := .queue .a }
  filters := Vector.replicate 24 FilterEntry.default
  qa := QueueCfg.default
  qb := QueueCfg.default

/-- The front end after a full reset with the given bank presence (R13). -/
def FrontEnd.reset (bank0 bank1 : Bool) : FrontEnd where
  present := ⟨#[bank0, bank1], rfl⟩
  rate := 2
  threshold := Vector.replicate 2 80
  hysteresis := Vector.replicate 2 1
  deglitch := Vector.replicate 2 0
  probe := Vector.replicate 16 0
  switchThreshold := Vector.replicate 2 80
  switchHysteresis := Vector.replicate 2 1
  comparator := 0
  registered := 0
  filtered := 0
  hold := Vector.replicate 16 0
  changing := 0
  changes := Vector.replicate 16 0
  lastLevels := 0
  activity := 0
  nextBoundary := 4
  lastBoundary := none

/-- An EMPTY segment header (2.2, R34, R35). -/
def SegHeader.empty : SegHeader where
  state := .empty
  base := 0
  count := 0
  oldest := 0
  trigTime := none
  cause := none
  causeTime := none
  postRemaining := none
  deadline := none
  close := none
  merged := 0
  lateMarks := 0
  lateFires := 0
  ending := none

/-- The capture store after a full reset (R35). -/
def Store.reset : Store where
  mem := []
  headers := Vector.replicate 8 SegHeader.empty
  fifo := []
  writeWait := 0
  layout := none
  reference := none
  current := none
  offers := []
  mergedSeen := false

/-- Session control after a full reset (R37, R42, R50). -/
def Session.reset : Session where
  draft := Plan.default
  active := none
  state := .idle
  k := none
  ready := false
  notes := []
  returned := []

/-- The sequencer after a full reset (R76). -/
def Sequencer.reset : Sequencer where
  stages := none
  stageCount := 0
  state := .stopped
  stage := 0
  count := 0
  timer := none
  patternFlag := false
  entry := .atTick
  levels := 0
  lastChange := Vector.replicate 16 none
  noticeWaiting := false

/-- The mark unit after a full reset (R95), the level at MRX being what it is. -/
def MarkUnit.reset (mrx : Bool) : MarkUnit where
  cfg := none
  state := .off
  handed := none
  fire := none
  pulseEnd := none
  waitEnd := none
  closing := none
  heldOpen := false
  edges := []
  missed := 0
  missedSeen := false
  mrx := mrx
  edgeThisTick := false
  trigOutEnd := none

/-- A decoder unit after a full reset (R116). -/
def DecUnit.reset : DecUnit where
  cfg := none
  undersampled := false
  assembly := .fresh
  levels := 0
  lastGlitch := none

/-- The decoder units after a full reset (R116). -/
def Decoders.reset : Decoders where
  units := Vector.replicate 4 DecUnit.reset
  running := false
  undersampledSeen := false

/-- A feed after a full reset (R136). -/
def Feed.reset : Feed where
  cfg := none
  state := .off
  timer := none
  returned := []
  seq := 0
  since := 0

/-- A word queue after a full reset (R136). -/
def WQueue.reset : WQueue where
  capacity := 0
  overwrite := false
  words := []
  fed := 0
  feed := Feed.reset
  enqueued := 0
  overwritten := 0
  trimmed := 0
  feedMissed := 0

/-- An empty latch slot (R125, R136). -/
def Latch.empty : Latch where
  word := none
  isNew := false
  overrun := 0

/-- The word filter and word memory after a full reset (R136). -/
def Words.reset : Words where
  filters := none
  qa := WQueue.reset
  qb := WQueue.reset
  latches := Vector.replicate 8 Latch.empty
  completed := 0
  discarded := 0
  lost := 0
  latched := 0
  trimmedAtCompletion := 0
  feedMissedSeen := false
  latchOverrunSeen := false

/-- The pod bus controller after a full reset with these straps (R137, R156), the level at DRX being what it is. -/
def Bus.reset (pins : Straps) (drx : Bool) : Bus where
  own := pins.st
  rate := pins.rt
  cadence := pins.cd
  panel := pins.pnl
  drxPin := drx
  drx := drx
  bitStart := 0
  dtxDominant := false
  line := none
  recessiveRun := 0
  dominantRun := 0
  inBreak := false
  joinCount := 0
  rxBits := []
  startStamp := none
  errorFound := false
  flagBits := 0
  queue := []
  onWire := none
  score := 0
  link := .joining
  rejoin := none

/-- An empty peer record (R169). -/
def Peer.empty : Peer where
  present := false
  timer := none
  details := none
  chain := none
  current := none
  base := none
  skew := 0
  skewValid := false
  drift := false
  lastFire := none

/-- The peer table after a full reset (R169). -/
def PeerTable.reset : PeerTable where
  peers := Vector.replicate 8 Peer.empty
  nextSeq := 0
  lastSent := none
  noteDue := false
  noteWaiting := false
  noteReturned := none
  rollDue := none

/-- The ask service after a full reset (R184). -/
def AskService.reset : AskService where
  table := []
  refusals := []
  status := []
  returned := []

/-- An unused lane (R198). -/
def Lane.unused : Lane where
  used := false
  decoder := false
  station := 0
  index := 0
  label := Vector.replicate 6 0x20

/-- The view window after a full reset (R198). -/
def Window.reset : Window where
  seg := 0
  zero := 0
  offset := 0
  w := 1000
  cursorA := none
  cursorB := none
  backlight := 8

/-- The view engine and panel port after a full reset: with a panel, one push of the blank frame buffer begins (R198);
without one, nothing is held and nothing pushed (R185). -/
def View.reset (panel : Bool) : View where
  lanes := Vector.replicate 16 Lane.unused
  window := Window.reset
  generation := 0
  pass := none
  fetch := Vector.replicate 16 none
  asks := []
  stops := []
  note := none
  buffer := []
  push := if panel then some 0 else none
  blLevel := if panel then 8 else 0
  blPhase := 0

/-- The strap and bank sense levels of `State.reset` (log entry 2): station 0, both banks fitted, a panel present. -/
def resetPins : Straps where
  bs0 := true
  bs1 := true
  st := 0
  rt := 0
  cd := 0
  pnl := true

/-- The machine right after a full reset (R13, R35, R42, R76, R95, R116, R136, R156, R169, R184, R198). -/
def State.reset : State where
  pending := []
  time := 0
  pins := resetPins
  frontEnd := FrontEnd.reset resetPins.bs0 resetPins.bs1
  store := Store.reset
  session := Session.reset
  sequencer := Sequencer.reset
  mark := MarkUnit.reset true
  decoders := Decoders.reset
  words := Words.reset
  bus := Bus.reset resetPins true
  peers := PeerTable.reset
  asks := AskService.reset
  view := View.reset resetPins.pnl
  order := 0
  choice := 0

end Sys2Proof.Machine
end

