-- ==== Sys2Proof/Machine/Ops.lean ====
section
/-! DEFINITION. The shared operations under everything else: station-time arithmetic (1.8), reading and writing bytes
(R199), the ordered lists that stand for the record memory and the frame buffer, saturating counts, and the numbering
of what is made. -/

namespace Sys2Proof.Machine

/-! ## Station time -/

/-- The difference `a - b` of two station times, read as a signed number (1.8). -/
def tdiff (a b : StationTime) : Int := (a - b).toInt

/-- `a` is earlier than `b` (1.8). -/
def earlier (a b : StationTime) : Bool := tdiff a b < 0

/-- `a` is at or before `b`. -/
def notAfter (a b : StationTime) : Bool := tdiff a b ≤ 0

/-- The time `n` ticks after `t`, wrapping at 2^48. -/
def after (t : StationTime) (n : Nat) : StationTime := t + BitVec.ofNat 48 n

/-- The time `n` ticks from `t`, `n` signed, modulo 2^48. -/
def shift (t : StationTime) (n : Int) : StationTime := t + BitVec.ofInt 48 n

/-- The later of two station times. -/
def later (a b : StationTime) : StationTime := if earlier a b then b else a

/-- The earlier of two station times. -/
def sooner (a b : StationTime) : StationTime := if earlier b a then b else a

/-- A running timer that expires at `e` has expired at `now`. -/
def expired (now e : StationTime) : Bool := notAfter e now

/-- A timer that may be stopped: it has expired only when it runs. -/
def timerDue (now : StationTime) : Option StationTime → Bool
  | none => false
  | some e => expired now e

/-- The sample period in ticks (R6). -/
def period (rate : BitVec 4) : Nat := 2 ^ rate.toNat

/-- The first multiple of `p` strictly after `t` (R12). -/
def boundaryAfter (t : StationTime) (p : Nat) : StationTime := BitVec.ofNat 48 ((t.toNat / p + 1) * p)

/-- The first multiple of `p` at or after `t` (R25). -/
def boundaryFrom (t : StationTime) (p : Nat) : StationTime := BitVec.ofNat 48 ((t.toNat + p - 1) / p * p)

/-! ## Levels and sets -/

/-- Channel `c`'s entry in a set or a level set. -/
def chanBit (s : ChanSet) (c : Chan) : Bool := s.getLsbD c.val

/-- The set with channel `c` alone. -/
def single (c : Chan) : ChanSet := BitVec.ofNat 16 (2 ^ c.val)

/-- `s` with channel `c`'s entry set to `v`. -/
def setChan (s : ChanSet) (c : Chan) (v : Bool) : ChanSet := if v then s ||| single c else s &&& ~~~(single c)

/-- The set of the channels for which `f` holds. -/
def chanSet (f : Chan → Bool) : ChanSet :=
  (List.finRange 16).foldl (fun s c => if f c then s ||| single c else s) 0

/-- The bank of a channel (1.1). -/
def bank (c : Chan) : Fin 2 := if c.val < 8 then 0 else 1

/-! ## Counts -/

/-- A 16-bit count that rises by 1 and stops at 65,535. -/
def bump16 (n : Nat) : Nat := min (n + 1) 65535

/-! ## Bytes of a payload (R199) -/

/-- The low `n` bytes of `v`, most significant first. -/
def beBytes : Nat → Nat → List Byte
  | 0, _ => []
  | n + 1, v => BitVec.ofNat 8 (v / 256 ^ n) :: beBytes n v

/-- The number that bytes spell, most significant first. -/
def beNat (l : List Byte) : Nat := l.foldl (fun a b => a * 256 + b.toNat) 0

/-- The `n`-byte number at offset `i` of a payload. -/
def field (l : List Byte) (i n : Nat) : Nat := beNat ((l.drop i).take n)

/-- Byte `i` of a payload; callers have checked the length. -/
def byteAt (l : List Byte) (i : Nat) : Byte := l.getD i 0

/-- Bits `lo` to `lo + n - 1` of a byte, as a number. -/
def bits (b : Byte) (lo n : Nat) : Nat := b.toNat / 2 ^ lo % 2 ^ n

/-- Bit `i` of a byte. -/
def bit (b : Byte) (i : Nat) : Bool := b.getLsbD i

/-- A byte from its bits, given as pairs of a place and a truth. -/
def flagByte (l : List (Nat × Bool)) : Byte :=
  BitVec.ofNat 8 (l.foldl (fun a f => a + if f.2 then 2 ^ f.1 else 0) 0)

/-- One byte. -/
def b1 (v : Nat) : List Byte := beBytes 1 v

/-- Two bytes. -/
def b2 (v : Nat) : List Byte := beBytes 2 v

/-- A station time or a stamp: six bytes. -/
def b6 (t : StationTime) : List Byte := beBytes 6 t.toNat

/-! ## Lists sorted by address -/

/-- Addresses strictly rise. -/
def rising {α : Type} : List (Nat × α) → Bool
  | [] => true
  | [_] => true
  | x :: y :: l => decide (x.1 < y.1) && rising (y :: l)

/-- What stands at an address. -/
def lookup {α : Type} : List (Nat × α) → Nat → Option α
  | [], _ => none
  | (a, v) :: l, k => if a = k then some v else lookup l k

/-- Writing at an address, in order. -/
def insertAt {α : Type} : List (Nat × α) → Nat → α → List (Nat × α)
  | [], k, x => [(k, x)]
  | (a, v) :: l, k, x =>
    if k < a then (k, x) :: (a, v) :: l
    else if k = a then (k, x) :: l
    else (a, v) :: insertAt l k x

/-! ## Record memory -/

/-- The canonical form of the record memory: places strictly rise and lie in 0 to 32,767 (R15). -/
def Store.memWf (m : List (Nat × Rec)) : Bool := rising m && m.all (fun c => c.1 < Config.recordPlaces)

/-- Reading a place: no record where nothing has been written since the store was cleared (R35). -/
def Store.read (st : Store) (place : Nat) : Option Rec := lookup st.mem place

/-- Writing a record into a place (R23); a place that does not exist takes nothing. -/
def Store.write (st : Store) (place : Nat) (r : Rec) : Store :=
  if place < Config.recordPlaces then { st with mem := insertAt st.mem place r } else st

/-! ## Frame buffer -/

/-- The canonical form of the frame buffer: addresses strictly rise and lie in 0 to 19,199, and no listed byte is 0,
which an unlisted byte reads as. -/
def View.bufferWf (l : List Host.Cell) : Bool :=
  rising l && l.all (fun c => decide (c.1 < Config.frameBufferBytes) && c.2 != 0)

/-- Reading a byte of the frame buffer: background where none is listed (R198). -/
def View.readByte (v : View) (a : Nat) : Byte := (lookup v.buffer a).getD 0

/-! ## Vectors indexed by Fin -/

/-- Entry `i` of a table. -/
def vget {α : Type} {n : Nat} (v : Vector α n) (i : Fin n) : α := v[i.val]

/-- The table with entry `i` replaced. -/
def vset {α : Type} {n : Nat} (v : Vector α n) (i : Fin n) (a : α) : Vector α n := v.set i.val a i.isLt

/-- The table with `f` applied to entry `i`. -/
def vmod {α : Type} {n : Nat} (v : Vector α n) (i : Fin n) (f : α → α) : Vector α n := vset v i (f (vget v i))

/-! ## Numbering -/

/-- The state with the next order number used up. -/
def State.tickOrder (s : State) : State := { s with order := s.order + 1 }

/-- What a frame waiting for a place looks like when it is made now (R147). -/
def State.hold (s : State) (o : Origin) (f : TxFrame) : Held := { since := s.order, origin := o, frame := f }

end Sys2Proof.Machine
end

