-- ==== Sys2Proof/Machine/Operands.lean ====
section
/-! DEFINITION. What the payload of a received frame says: the layouts of chapter 12 read field by field, with the
clamping of R41, R170 and R186 where a value is taken on the way in. -/

namespace Sys2Proof.Machine

/-- `n` kept within `lo` to `hi` (R41). -/
def clamp (lo hi n : Nat) : Nat := min hi (max lo n)

/-- A channel byte: bits 3–0 (12.4). -/
def readChan (b : Byte) : Chan := ⟨b.toNat % 16, Nat.mod_lt _ (by decide)⟩

/-- An optional channel byte: none when bit 7 is set (12.4). -/
def readOptChan (b : Byte) : Option Chan := if bit b 7 then none else some (readChan b)

/-- A station in bits 2–0. -/
def readStation (n : Nat) : Station := ⟨n % 8, Nat.mod_lt _ (by decide)⟩

/-! ## Plan parts (R202) -/

/-- Length of the plan part with this identity (R202); none for an identity above 15. -/
def planPartLength (id : Nat) : Option Nat :=
  if id = 0 then some 13
  else if id ≤ 4 then some 16
  else if id ≤ 8 then some 15
  else if id ≤ 14 then some 36
  else if id = 15 then some 11
  else none

/-- A role code: 3 is taken as SOLO (R202). -/
def readRole (n : Nat) : Role := if n = 1 then .lead else if n = 2 then .follow else .solo

/-- The GENERAL part from its 13 bytes, clamped (R41, R202). -/
def readGeneral (l : List Byte) : General where
  rate := BitVec.ofNat 4 (bits (byteAt l 0) 0 4)
  segCode := BitVec.ofNat 2 (bits (byteAt l 1) 0 2)
  p := clamp 1 8 (byteAt l 2).toNat
  postTime := field l 3 2
  prefill := bit (byteAt l 5) 0
  role := readRole (bits (byteAt l 5) 1 2)
  sense := if bit (byteAt l 5) 3 then .all else .any
  hold := clamp 1 4095 (field l 6 2)
  threshold := ⟨#[byteAt l 8, byteAt l 10], rfl⟩
  hysteresis := ⟨#[BitVec.ofNat 2 (bits (byteAt l 9) 2 2), BitVec.ofNat 2 (bits (byteAt l 11) 2 2)], rfl⟩
  deglitch := ⟨#[BitVec.ofNat 2 (bits (byteAt l 9) 0 2), BitVec.ofNat 2 (bits (byteAt l 11) 0 2)], rfl⟩
  stageCount := min 4 (byteAt l 12).toNat

/-- The two-byte channel set at offset `i`. -/
def readSet (l : List Byte) (i : Nat) : ChanSet := BitVec.ofNat 16 (field l i 2)

/-- A stage's condition from its kind byte and parameters (R202). -/
def readCond (l : List Byte) : Cond :=
  match (byteAt l 0).toNat with
  | 0 => .pattern (readSet l 1) (readSet l 3)
  | 1 => .edge (readSet l 1)
      (if (byteAt l 3).toNat = 0 then .rising else if (byteAt l 3).toNat = 1 then .falling else .either)
  | 2 => .glitch (readSet l 1)
  | 3 => .pulse (readChan (byteAt l 1)) (bit (byteAt l 2) 0) (field l 3 4) (field l 7 4)
  | 4 => .cue (BitVec.ofNat 5 (bits (byteAt l 1) 0 5))
  | _ => .unassigned (byteAt l 0)

/-- A STAGE part from its 16 bytes, clamped (R41, R202). -/
def readStage (l : List Byte) : Stage where
  cond := readCond l
  n := max 1 (field l 11 2)
  timeout := field l 13 2
  satisfiedFires := bit (byteAt l 15) 0
  timeoutFires := bit (byteAt l 15) 1

/-- Parity code: 2 or more is ODD (R202). -/
def readParity (n : Nat) : Parity := if n = 0 then .none else if n = 1 then .even else .odd

/-- A decoder's kind and parameters; a kind code above 4 is taken as OFF (R41, R202). -/
def readDecCfg (l : List Byte) : DecCfg :=
  match (byteAt l 0).toNat with
  | 1 => .uart {
      ch := readChan (byteAt l 2)
      bit16 := min (2 ^ 24) (field l 3 4)
      dataBits := clamp 5 9 (byteAt l 7).toNat
      parity := readParity (byteAt l 8).toNat
      twoStops := bit (byteAt l 9) 0
      idleHigh := bit (byteAt l 10) 0
      gap := if (byteAt l 11).toNat = 1 then 2 else (byteAt l 11).toNat }
  | 2 => .spi {
      clock := readChan (byteAt l 2)
      falling := bit (byteAt l 3) 0
      dataOut := readOptChan (byteAt l 4)
      dataIn := readOptChan (byteAt l 5)
      select := readOptChan (byteAt l 6)
      activeHigh := bit (byteAt l 7) 0
      length := clamp 4 16 (byteAt l 8).toNat
      lsbFirst := bit (byteAt l 9) 0
      resync := field l 10 3 }
  | 3 => .i2c (readChan (byteAt l 2)) (readChan (byteAt l 3))
  | 4 => .bmc {
      ch := readChan (byteAt l 2)
      halfMin := field l 3 3
      halfMax := field l 6 3
      fullMin := field l 9 3
      fullMax := field l 12 3 }
  | _ => .off

/-- A DECODER part from its 15 bytes; a default destination above 1 is DISCARD (R202). -/
def readDecPart (l : List Byte) : DecPart where
  cfg := readDecCfg l
  dest :=
    if (byteAt l 1).toNat = 0 then .queue .a else if (byteAt l 1).toNat = 1 then .queue .b else .discard

/-- A filter entry's destination byte (R202). -/
def readDest (b : Byte) : Dest :=
  match bits b 4 4 with
  | 0 => .queue .a
  | 1 => .queue .b
  | 2 => .latch (BitVec.ofNat 4 (bits b 0 4))
  | _ => .discard

/-- A filter entry from its 9 bytes; rule 3 is taken as RANGE (R202). -/
def readFilter (l : List Byte) : FilterEntry where
  enabled := bit (byteAt l 0) 7
  cue := bit (byteAt l 0) 6
  value2 := bit (byteAt l 0) 5
  rule := if bits (byteAt l 0) 0 2 = 1 then .pair else if bits (byteAt l 0) 0 2 = 2 then .mask else .range
  decoders := BitVec.ofNat 4 (bits (byteAt l 1) 0 4)
  kinds := BitVec.ofNat 16 (field l 2 2)
  v1 := BitVec.ofNat 16 (field l 4 2)
  v2 := BitVec.ofNat 16 (field l 6 2)
  dest := readDest (byteAt l 8)

/-- A feed's settings from its 3 bytes (R41, R202). -/
def readFeed (l : List Byte) : FeedCfg where
  enabled := bit (byteAt l 0) 7
  target := if bit (byteAt l 0) 3 then none else some (readStation (byteAt l 0).toNat)
  levelCode := BitVec.ofNat 2 (bits (byteAt l 1) 0 2)
  timeout := max 1 (byteAt l 2).toNat

/-- Queue A's half of the QUEUES part (R41, R202). -/
def readQueueA (l : List Byte) : QueueCfg where
  capacity := min 1024 (field l 0 2)
  overwrite := bit (byteAt l 4) 0
  feed := readFeed (l.drop 5)

/-- Queue B's half of the QUEUES part (R41, R202). -/
def readQueueB (l : List Byte) : QueueCfg where
  capacity := min 1024 (field l 2 2)
  overwrite := bit (byteAt l 4) 1
  feed := readFeed (l.drop 8)

/-- The draft with filter entries F(4n) to F(4n + 3) replaced (R117, R202). -/
def setFilters (v : Vector FilterEntry 24) (n : Nat) (l : List Byte) : Vector FilterEntry 24 :=
  Vector.ofFn fun i => if i.val / 4 = n then readFilter (l.drop (i.val % 4 * 9)) else vget v i

/-- The draft with the part of this identity replaced whole by the written part (R39, R41). -/
def Plan.writePart (d : Plan) (id : Nat) (l : List Byte) : Plan :=
  if id = 0 then { d with general := readGeneral l }
  else if h : id - 1 < 4 then { d with stages := vset d.stages ⟨id - 1, h⟩ (readStage l) }
  else if h : id - 5 < 4 then { d with decoders := vset d.decoders ⟨id - 5, h⟩ (readDecPart l) }
  else if id ≤ 14 then { d with filters := setFilters d.filters (id - 9) l }
  else { d with qa := readQueueA l, qb := readQueueB l }

/-! ## View parts (R203) -/

/-- A lane from its 8 bytes (R203). -/
def readLane (l : List Byte) : Lane where
  used := bit (byteAt l 0) 7
  decoder := bit (byteAt l 0) 6
  station := readStation (byteAt l 0).toNat
  index := byteAt l 1
  label := Vector.ofFn fun i => byteAt l (2 + i.val)

/-- A cursor: a column above 279, FFFFH among them, is off (R186, R203). -/
def readCursor (n : Nat) : Option Nat := if n < Config.viewColumns then some n else none

/-- The WINDOW part from its 17 bytes (R186, R203). -/
def readWindow (l : List Byte) : Window where
  seg := readStation (byteAt l 0).toNat
  zero := readStation (byteAt l 1).toNat
  offset := BitVec.ofNat 48 (field l 2 6)
  w := max 1 (field l 8 4)
  cursorA := readCursor (field l 12 2)
  cursorB := readCursor (field l 14 2)
  backlight := BitVec.ofNat 4 (bits (byteAt l 16) 0 4)

/-- The view plan's lanes with lanes 4n to 4n + 3 replaced (R186). -/
def setLanes (v : Vector Lane 16) (n : Nat) (l : List Byte) : Vector Lane 16 :=
  Vector.ofFn fun i => if i.val / 4 = n then readLane (l.drop (i.val % 4 * 8)) else vget v i

/-! ## Asks and replies (R201) -/

/-- A two-byte two's complement number at offset `i`. -/
def readSigned16 (l : List Byte) (i : Nat) : Int := (BitVec.ofNat 16 (field l i 2)).toInt

/-- k' clamped to ±8,192 with its sign (R170). -/
def clampSkew (k : Int) : Int := max (-8192) (min 8192 k)

/-- A REDUCE_ASK's or WORDS_ASK's entry from its 17 bytes, w of 0 taken as 1 and k' clamped (R170). -/
def readAsk (id : Nat) (asker : Station) (words : Bool) (l : List Byte) : AskEntry where
  id := id
  asker := asker
  own := false
  tag := byteAt l 0
  words := words
  seg := byteAt l 1
  index := byteAt l 2
  start := BitVec.ofNat 48 (field l 3 6)
  w := max 1 (field l 9 4)
  k := clampSkew (readSigned16 l 13)
  columns := field l 15 2
  serving := false
  parts := []
  placed := 0
  sent := 0
  readySince := 0

/-- An outcome code; the codes 8 to 255 are unassigned (R200). -/
def readOutcome (n : Nat) : Option OutcomeCode :=
  match n with
  | 0 => some .ok
  | 1 => some .busy
  | 2 => some .range
  | 3 => some .live
  | 4 => some .gone
  | 5 => some .noSession
  | 6 => some .noPanel
  | 7 => some .badPart
  | _ => none

/-- A run's class code (R201). -/
def readClass (n : Nat) : ColClass :=
  match n with
  | 0 => .low
  | 1 => .high
  | 2 => .toggle
  | _ => .none

/-- A run from its 12 bits (R201). -/
def readRun (n : Nat) : Run where
  cls := readClass (n / 1024 % 4)
  glitch := n / 512 % 2 = 1
  length := n % 512 + 1

/-- `count` runs packed in pairs, the first of a pair in the upper 12 bits of 3 bytes (R201). -/
def readRuns : Nat → List Byte → List Run
  | 0, _ => []
  | 1, l => [readRun (field l 0 3 / 4096)]
  | n + 2, l => readRun (field l 0 3 / 4096) :: readRun (field l 0 3 % 4096) :: readRuns n (l.drop 3)

/-- A box from its 8 bytes (R201). -/
def readBox (l : List Byte) : Box where
  first := field l 0 2
  last := field l 2 2
  kind := byteAt l 4
  value := field l 6 2
  clipL := bit (byteAt l 5) 0
  clipR := bit (byteAt l 5) 1
  error := bit (byteAt l 5) 2
  dense := bit (byteAt l 5) 3
  more := bit (byteAt l 5) 4

/-- `count` boxes (R201). -/
def readBoxes : Nat → List Byte → List Box
  | 0, _ => []
  | n + 1, l => readBox l :: readBoxes n (l.drop 8)

/-- A reply part from a RUNS (or BOXES) payload: none where its length does not fit its count (R199, R201) or its
outcome code is unassigned (log entry 20). -/
def readPart (isBoxes : Bool) (l : List Byte) : Option Part :=
  let count := (byteAt l 6).toNat
  let fits :=
    if isBoxes then count ≤ 6 && l.length == 7 + 8 * count
    else count ≤ 27 && l.length == 7 + 3 * ((count + 1) / 2)
  if 7 ≤ l.length && fits then
    (readOutcome (byteAt l 1).toNat).map fun o =>
      { tag := byteAt l 0
        outcome := o
        index := (byteAt l 2).toNat
        first := field l 3 2
        last := bit (byteAt l 5) 0
        absent := !isBoxes && bit (byteAt l 5) 1
        data := if isBoxes then .boxes (readBoxes count (l.drop 7)) else .runs (readRuns count (l.drop 7)) }
  else none

/-! ## Notes from peers (R201, R204) -/

/-- A ROLL_CALL's answer mark and details, where its length fits its bank count (R199, R201; odd values: log entry 47).
DESIGN CHOICE: bit n of the banks stands for bank n (log entry 70). -/
def readRollCall (l : List Byte) : Option (Bool × RollDetails) :=
  let n := (byteAt l 1).toNat
  if n ≤ 2 ∧ l.length = 6 + n then
    let banks := (l.drop 2).take n
    some (bit (byteAt l 0) 7,
      { banks := banks.foldl (fun a b => a ||| (if b = 0 then 1 else if b = 1 then 2 else 0)) 0
        panel := byteAt l (2 + n) != 0
        cadence := byteAt l (3 + n)
        part := BitVec.ofNat 16 (field l (4 + n) 2) })
  else none

/-- The segment that a STATUS_NOTE closure reports (type 2, R204), where its length fits its kind. -/
def readClosure (l : List Byte) : Option Byte :=
  if l.length = 41 ∧ byteAt l 0 = 2 then some (byteAt l 3) else none

/-- The selector of a STATUS_ASK (R181, R201). -/
def readSelector (b : Byte) : Selector :=
  if b = 0 then .summary else if b = 1 then .latches else .other

end Sys2Proof.Machine
end

