-- ==== Sys2Proof/Machine/Layouts.lean ====
section
/-! DEFINITION. The frames this station sends and the records it keeps, written byte by byte as chapter 12 lays them
out (R199–R201, R204). -/

namespace Sys2Proof.Machine

/-! ## Codes (R200, R201) -/

/-- Frame kind codes (R201). -/
def kMarkNote : BitVec 4 := 0
def kTimeNote : BitVec 4 := 4
def kStop : BitVec 4 := 5
def kReduceAsk : BitVec 4 := 8
def kWordsAsk : BitVec 4 := 9
def kRuns : BitVec 4 := 11
def kBoxes : BitVec 4 := 12
def kStatusNote : BitVec 4 := 13
def kWordsNote : BitVec 4 := 14
def kRollCall : BitVec 4 := 15

/-- Outcome codes (R200). -/
def OutcomeCode.code : OutcomeCode → Nat
  | .ok => 0
  | .busy => 1
  | .range => 2
  | .live => 3
  | .gone => 4
  | .noSession => 5
  | .noPanel => 6
  | .badPart => 7

/-- Session state codes (R200). -/
def SessState.code : SessState → Nat
  | .idle => 0
  | .armed => 1
  | .triggered => 2
  | .done => 3
  | .aborted => 4

/-- Segment state codes (R200). -/
def SegState.code : SegState → Nat
  | .empty => 0
  | .filling => 1
  | .post => 2
  | .complete => 3
  | .cut => 4

/-- Sequencer state codes (R200). -/
def SeqState.code : SeqState → Nat
  | .stopped => 0
  | .waiting => 1
  | .running => 2
  | .fired => 3
  | .parked => 4

/-- Link state codes (R200). -/
def LinkState.code : LinkState → Nat
  | .joining => 0
  | .normal => 1
  | .cautious => 2
  | .detached => 3
  | .duplicate => 4

/-- Word kind codes (R200). -/
def WKind.code : WKind → Nat
  | .start => 0
  | .address => 1
  | .data => 2
  | .ack => 3
  | .nack => 4
  | .stop => 5
  | .gap => 6
  | .brk => 7
  | .sync => 8
  | .fin => 9
  | .error => 10

/-- Column class codes (R201). -/
def ColClass.code : ColClass → Nat
  | .low => 0
  | .high => 1
  | .toggle => 2
  | .none => 3

/-- Condition kind codes (R202); an unassigned code is the code held. -/
def Cond.code : Cond → Byte
  | .pattern _ _ => 0
  | .edge _ _ => 1
  | .glitch _ => 2
  | .pulse _ _ _ _ => 3
  | .cue _ => 4
  | .unassigned c => c

/-! ## Records (R200) -/

/-- Bit 4 of byte 0 of a cause, its ending (R200): set for EXPIRED. -/
def endingBit (expired : Bool) : Nat := if expired then 16 else 0

/-- A cause, 3 bytes (R200). Two things have no stated value and are free: the ending bit of a MARK cause (log entry 67) and
the peer number bits of an absent peer (log entry 66). -/
def Cause.bytes : Cause → List Byte
  | .sequencer stage expired kind entry =>
    [BitVec.ofNat 8 (stage.val * 32 + endingBit expired), kind,
      BitVec.ofNat 8 (match entry with | some e => e.val | none => 255)]
  | .mark peer =>
    let number := match peer with | some p => p.val | none => 8 + Config.absentPeer.toNat
    [BitVec.ofNat 8 (0x80 + endingBit Config.markEnding + number), 0xFF, 0xFF]

/-- A cause read back from its 3 bytes; a cue entry byte above 23 is absent (R200). The ending bit of a MARK cause is not
read (log entry 67). -/
def Cause.ofBytes (l : List Byte) : Cause :=
  if bit (byteAt l 0) 7 then
    .mark (if bit (byteAt l 0) 3 then none else some (readStation (byteAt l 0).toNat))
  else
    .sequencer ⟨bits (byteAt l 0) 5 2, Nat.mod_lt _ (by decide)⟩ (bit (byteAt l 0) 4) (byteAt l 1)
      (if h : (byteAt l 2).toNat < 24 then some ⟨_, h⟩ else none)

/-- A word record, 19 bytes (R200). -/
def Word.bytes (w : Word) : List Byte :=
  b1 (w.decoder.val * 64 + (if w.value2.isSome then 32 else 0) + w.kind.code) ++ b2 w.value.toNat ++
    b2 (w.value2.getD 0).toNat ++ b6 w.start ++ b6 w.stop ++
    [flagByte [(0, w.flags.parity), (1, w.flags.framing), (2, w.flags.short), (3, w.flags.undersampled),
      (4, w.flags.glitched), (5, w.flags.acked)]] ++
    b1 ((match w.matched with | some e => e.val | none => 31) * 8 + w.seg.val)

/-- A capture record in the store's own place format, 8 bytes (R200). -/
def Rec.bytes (r : Rec) : List Byte :=
  b2 r.delta.toNat ++ b2 r.levels.toNat ++ b2 r.glitch.toNat ++
    [flagByte [(0, r.first), (1, r.trigger), (2, r.filler), (3, r.merged)], 0]

/-- A capture record read back from its place format (R200). -/
def Rec.ofBytes (l : List Byte) : Rec where
  delta := BitVec.ofNat 16 (field l 0 2)
  levels := BitVec.ofNat 16 (field l 2 2)
  glitch := BitVec.ofNat 16 (field l 4 2)
  first := bit (byteAt l 6) 0
  trigger := bit (byteAt l 6) 1
  filler := bit (byteAt l 6) 2
  merged := bit (byteAt l 6) 3

/-! ## Frames (R201) -/

/-- A frame to every station; its destination field is not stated (log entry 6). -/
def broadcast (kind : BitVec 4) (payload : List Byte) : TxFrame :=
  { kind := kind, dst := Config.broadcastDst, bcast := true, payload := payload }

/-- A frame to one station. -/
def addressed (kind : BitVec 4) (dst : Station) (payload : List Byte) : TxFrame :=
  { kind := kind, dst := dst, bcast := false, payload := payload }

/-- MARK_NOTE (R90, R201). -/
def markNoteFrame (seg : Fin 8) (stamp : StationTime) (cause : Cause) : TxFrame :=
  broadcast kMarkNote (b1 seg.val ++ b6 stamp ++ cause.bytes)

/-- TIME_NOTE (R163, R201). -/
def timeNoteFrame (seq : Byte) (prev : Option StationTime) : TxFrame :=
  broadcast kTimeNote (seq :: flagByte [(0, prev.isSome)] :: b6 (prev.getD 0))

/-- ROLL_CALL (9.4, R201). DESIGN CHOICE: the panel byte is 1 for present and 0 for absent, and the bank numbers rise
(log entry 69). -/
def rollCallFrame (own : Station) (answer : Bool) (present : Vector Bool 2) (panel : Bool) (cadenceBit : Nat) :
    TxFrame :=
  let banks := (if present[0] then [(0 : Byte)] else []) ++ (if present[1] then [1] else [])
  broadcast kRollCall
    (b1 (own.val + if answer then 128 else 0) ++ b1 banks.length ++ banks ++ [if panel then 1 else 0] ++
      b1 cadenceBit ++ b2 Config.partCode)

/-- STOP (R190, R201). -/
def stopFrame (dst : Station) (tag : Byte) : TxFrame := addressed kStop dst [tag]

/-- REDUCE_ASK or WORDS_ASK (R189, R201). -/
def askFrame (words : Bool) (dst : Station) (tag : Byte) (seg : Fin 8) (index : Byte) (start : StationTime) (w : Nat)
    (k : Int) (columns : Nat) : TxFrame :=
  addressed (if words then kWordsAsk else kReduceAsk) dst
    (tag :: b1 seg.val ++ [index] ++ b6 start ++ beBytes 4 w ++ b2 (BitVec.ofInt 16 k).toNat ++ b2 columns)

/-- A run, 12 bits (R201). -/
def Run.word (r : Run) : Nat := r.cls.code * 1024 + (if r.glitch then 512 else 0) + (r.length - 1) % 512

/-- Runs packed in pairs (R201). -/
def runsBytes : List Run → List Byte
  | [] => []
  | [r] => beBytes 3 (r.word * 4096)
  | r :: r' :: l => beBytes 3 (r.word * 4096 + r'.word) ++ runsBytes l

/-- A box, 8 bytes (R201). -/
def Box.bytes (b : Box) : List Byte :=
  b2 b.first ++ b2 b.last ++
    [b.kind, flagByte [(0, b.clipL), (1, b.clipR), (2, b.error), (3, b.dense), (4, b.more)]] ++ b2 b.value

/-- A reply part as a RUNS or BOXES frame to its asker (R177, R201). -/
def Part.frame (dst : Station) (p : Part) : TxFrame :=
  let head := fun (count : Nat) =>
    p.tag :: b1 p.outcome.code ++ b1 p.index ++ b2 p.first ++ [flagByte [(0, p.last), (1, p.absent)]] ++ b1 count
  match p.data with
  | .runs l => addressed kRuns dst (head l.length ++ runsBytes l)
  | .boxes l => addressed kBoxes dst (head l.length ++ l.flatMap Box.bytes)

/-- WORDS_NOTE (R130, R201). -/
def wordsNoteFrame (q : QueueId) (target : Option Station) (seq : Byte) (missed : BitVec 32) (words : List Word) :
    TxFrame :=
  let payload := BitVec.ofNat 8 ((if q = .b then 128 else 0) + words.length % 4) :: seq ::
    BitVec.ofNat 8 missed.toNat :: words.flatMap Word.bytes
  match target with
  | none => broadcast kWordsNote payload
  | some d => addressed kWordsNote d payload

/-! ## STATUS_NOTE (R204) -/

/-- The note head, 3 bytes (R204). -/
def noteHead (type : Nat) (o : OutcomeCode) (part : Nat) : List Byte := b1 type ++ b1 o.code ++ b1 part

/-- k in a note: FFH when absent (R204). -/
def kByte (k : Option (Fin 8)) : List Byte := b1 (match k with | some k => k.val | none => 255)

/-- S in a note: FFH when there is no active plan (R204). -/
def sByte (active : Option Plan) : List Byte :=
  b1 (match active with | some p => 2 ^ p.general.segCode.toNat | none => 255)

/-- A session-change note (R52, R204). -/
def changeNoteFrame (state : SessState) (k : Option (Fin 8)) (active : Option Plan) (time : StationTime) : TxFrame :=
  broadcast kStatusNote (noteHead 0 .ok 0 ++ b1 state.code ++ kByte k ++ sByte active ++ b6 time)

/-- A refusal note (R53, R204): the failing part's identity for BAD_PART, FFH for BUSY. -/
def refusalNoteFrame (failing : Option Nat) (state : SessState) (k : Option (Fin 8)) : TxFrame :=
  broadcast kStatusNote
    (noteHead 1 (if failing.isSome then .badPart else .busy) 0 ++ b1 state.code ++ kByte k ++ b1 (failing.getD 255))

/-- A closure note (R54, R204). -/
def closureNoteFrame (seg : Fin 8) (h : SegHeader) : TxFrame :=
  let trig := match h.trigTime, h.cause, h.causeTime with
    | some t, some c, some ct => [1] ++ b6 t ++ c.bytes ++ b6 ct
    | _, _, _ => List.replicate 16 0
  broadcast kStatusNote
    (noteHead 2 .ok 0 ++ b1 seg.val ++ b1 h.state.code ++ b6 h.base ++ b6 (h.close.getD 0) ++ b2 h.count ++ trig ++
      b2 h.merged ++ b2 h.lateMarks ++ b2 h.lateFires)

/-- A NO_PANEL refusal (R185, R204). -/
def noPanelFrame (dst : Station) (identity : Byte) : TxFrame :=
  addressed kStatusNote dst (noteHead 5 .noPanel 0 ++ [identity])

/-- A selector refusal (R181, R204). -/
def selectorRefusalFrame (dst : Station) : TxFrame := addressed kStatusNote dst (noteHead 6 .range 0)

end Sys2Proof.Machine
end

