-- ==== Sys2Proof/Machine/Wire.lean ====
section
/-! DEFINITION. A frame as the bits on DATA (8.2): the CRC, bit stuffing, the fields in order, and how a receiver reads
them back. A bit is `true` for recessive (1) and `false` for dominant (0). -/

namespace Sys2Proof.Machine

/-- The low `n` bits of `v`, most significant first (R199). -/
def beBits : Nat → Nat → List Bool
  | 0, _ => []
  | n + 1, v => (v / 2 ^ n % 2 == 1) :: beBits n v

/-- The number that bits spell, most significant first. -/
def bitsNat (l : List Bool) : Nat := l.foldl (fun a b => a * 2 + if b then 1 else 0) 0

/-- One step of the CRC register with polynomial x^16 + x^12 + x^5 + 1 (R139). -/
def crcStep (r : BitVec 16) (b : Bool) : BitVec 16 :=
  if r.getLsbD 15 == b then r <<< 1 else (r <<< 1) ^^^ 0x1021

/-- The CRC over unstuffed bits, from all ones, with no final XOR (R139). -/
def crc (l : List Bool) : BitVec 16 := l.foldl crcStep 0xFFFF

/-- Kind through payload of a frame: what the CRC is taken over (R139). -/
def contentBits (src : Station) (f : TxFrame) : List Bool :=
  beBits 4 f.kind.toNat ++ beBits 3 src.val ++ beBits 3 f.dst.val ++ [f.bcast] ++ beBits 6 f.payload.length ++
    f.payload.flatMap (fun b => beBits 8 b.toNat)

/-- Bit stuffing (R140): `run` bits equal to `last` have just gone by; after six of them the opposite bit is
inserted, which begins the next run. -/
def stuffFrom : (last : Bool) → (run : Nat) → List Bool → List Bool
  | last, run, [] => if run = 6 then [!last] else []
  | last, run, b :: l =>
    if run = 6 then
      (!last) :: b :: stuffFrom b (if b = last then 1 else 2) l
    else if b = last then b :: stuffFrom b (run + 1) l
    else b :: stuffFrom b 1 l

/-- The stuffed region: start bit, content and CRC with the stuff bits put in (R139, R140). -/
def stuffed (l : List Bool) : List Bool :=
  match l with
  | [] => []
  | b :: l => b :: stuffFrom b 1 l

/-- Every bit a sender sends for a frame: the stuffed region, then the receipt slot, the receipt delimiter and the
four end bits, all recessive from the sender (R139). -/
def frameBits (src : Station) (f : TxFrame) : List Bool :=
  let c := contentBits src f
  stuffed (false :: c ++ beBits 16 (crc c).toNat) ++ List.replicate 6 true

/-- How many of a frame's bits belong to the start bit, the arbitration field and their stuff bits (R142). -/
def arbitrationBits (src : Station) (f : TxFrame) : Nat :=
  (stuffed (false :: (contentBits src f).take 7)).length

/-- The error kinds a receiver tells apart (R140, R143). -/
inductive RxError where
  | stuff
  | length
  | crc
  | form
  deriving DecidableEq, Repr

/-- What a receiver makes of the bits sampled so far (R143). -/
inductive RxScan where
  /-- the frame goes on; `slotNext` when the next bit is the receipt slot -/
  | more (slotNext : Bool)
  | error (e : RxError)
  /-- the last end bit is in: the content bits of a good frame -/
  | good (content : List Bool)
  deriving DecidableEq, Repr

/-- Number of unstuffed bits from the start bit to the end of the CRC, once the length field is in (R139). -/
def regionLength (content : List Bool) : Option Nat :=
  if content.length < 18 then none else some (18 + 8 * bitsNat ((content.drop 12).take 6) + 16)

/-- What the content taken so far says (R143): still inside the stuffed region, a length field above 60, or at the last
CRC bit with a CRC that matches or not. -/
inductive RegionCheck where
  | inside
  | tooLong
  | atEnd (good : Bool)
  deriving DecidableEq, Repr

/-- The length and CRC checks, each when its field is complete (R143). `content` starts with the start bit. -/
def checkRegion (content : List Bool) : RegionCheck :=
  match regionLength content with
  | none => .inside
  | some n =>
    if 60 < bitsNat ((content.drop 12).take 6) then .tooLong
    else if content.length < n then .inside
    else
      let body := (content.take (n - 16)).drop 1
      .atEnd (decide ((crc body).toNat = bitsNat ((content.drop (n - 16)).take 16)))

/-- After the stuffed region: the receipt slot is not checked, the delimiter and the end bits must be recessive. -/
def scanTail (content : List Bool) : List Bool → RxScan
  | [] => .more true
  | _ :: rest =>
    if rest.any (· == false) then .error .form
    else if rest.length < 5 then .more false
    else .good content

/-- The bits `l` after the stuffed region, whose CRC matches or not: a CRC error is found at the end of the CRC, so that a
flag begins in the receipt slot (R143, R145). -/
def scanEnd (content : List Bool) (good : Bool) (l : List Bool) : RxScan :=
  if good then scanTail content l else .error .crc

/-- Reads the bits of a frame one by one (R140, R143): `run` equal bits, the last of them `last`, precede. The stuff bit
after a run that ends with the last CRC bit belongs to the stuffed region (R140). -/
def scanFrom (content : List Bool) (last : Bool) (run : Nat) : List Bool → RxScan
  | [] =>
    match checkRegion content with
    | .tooLong => .error .length
    | .atEnd good => if run = 6 then .more false else scanEnd content good []
    | .inside => .more false
  | b :: l =>
    match checkRegion content with
    | .tooLong => .error .length
    | .atEnd good =>
      if run = 6 then if b = last then .error .stuff else scanEnd content good l
      else scanEnd content good (b :: l)
    | .inside =>
      if run = 6 then if b = last then .error .stuff else scanFrom content b 1 l
      else scanFrom (content ++ [b]) b (if b = last then run + 1 else 1) l

/-- What a receiver makes of the bits sampled from the start bit on (R143). -/
def scanFrame : List Bool → RxScan
  | [] => .more false
  | b :: l => scanFrom [b] b 1 l

/-- The payload bytes in a good frame's content bits. -/
def payloadOf : Nat → List Bool → List Byte
  | 0, _ => []
  | n + 1, l => BitVec.ofNat 8 (bitsNat (l.take 8)) :: payloadOf n (l.drop 8)

/-- The kind and the frame that a good frame's content bits spell, with the stamp of its start edge (R139, R158). -/
def readContent (stamp : StationTime) (content : List Bool) : Nat × RxFrame :=
  let c := content.drop 1
  (bitsNat (c.take 4),
    { src := readStation (bitsNat ((c.drop 4).take 3))
      dst := readStation (bitsNat ((c.drop 7).take 3))
      bcast := (c.drop 10).headD false
      stamp := stamp
      payload := payloadOf (bitsNat ((c.drop 11).take 6)) (c.drop 17) })

/-- The command that the good receipt of a frame of this kind is (R143, R201). -/
def frameCommand (kind : Nat) (f : RxFrame) : Instr :=
  match kind with
  | 0 => .markNote f
  | 1 => .halt f
  | 2 => .restart f
  | 3 => .arm f
  | 4 => .timeNote f
  | 5 => .stop f
  | 6 => .planPart f
  | 7 => if f.payload = [5] then .viewGo f else .viewPart f
  | 8 => .reduceAsk f
  | 9 => .wordsAsk f
  | 10 => .statusAsk f
  | 11 => .runs f
  | 12 => .boxes f
  | 13 => .statusNote f
  | 14 => .wordsNote f
  | _ => .rollCall f

end Sys2Proof.Machine
end

