-- ==== Sys2Proof/Machine/Flags.lean ====
section
/-! DEFINITION. The trouble score and the link state it sets (8.4), the six sticky flags a SUMMARY report carries and
clears (R182), and the conditions on the link that other blocks ask about. -/

namespace Sys2Proof.Machine

/-! ## Trouble score (R151, R152) -/

/-- The link state that a score sets in NORMAL and CAUTIOUS (R152). -/
def linkOfScore (n : Nat) : LinkState := if n ≤ 127 then .normal else if n ≤ 223 then .cautious else .detached

/-- The link states in which the score changes, frames are sent and receipt slots are driven (R152). -/
def LinkState.takesPart : LinkState → Bool
  | .normal | .cautious => true
  | .joining | .detached | .duplicate => false

/-- The link states in which the transmit queue has no room and DATA and MARK are not driven (R146, R78, R152). -/
def LinkState.silent : LinkState → Bool
  | .detached | .duplicate => true
  | .joining | .normal | .cautious => false

/-- A score with 8 added for an own-frame error (R151). -/
def scoreOwnError (n : Nat) : Nat := min 255 (n + 8)

/-- A score with 1 added for an error found in a received frame (R151). -/
def scoreRxError (n : Nat) : Nat := min 255 (n + 1)

/-- A score with 1 taken off for a frame SENT or a good frame received (R151). -/
def scoreGood (n : Nat) : Nat := n - 1

/-! ## MARK drive (R78) -/

/-- MTX as the mark state intends it (5.1): `true` when low is driven. -/
def MarkUnit.intendsLow (m : MarkUnit) : Bool :=
  match m.state with
  | .pulse => m.pulseEnd.isSome
  | .hold => true
  | .off | .watch | .opened => false

/-- The MTX pin (R78): low is driven when the mark state intends it and the link is not DETACHED or DUPLICATE. -/
def State.mtxLow (s : State) : Bool := s.mark.intendsLow && !s.bus.link.silent

/-- The TRIG_OUT pin (R93). -/
def State.trigOut (s : State) : Bool := s.mark.trigOutEnd.isSome

/-! ## Sticky flags (R182) -/

/-- The DRIFT peer mask: bit n for station n (R199, R204). -/
def PeerTable.driftMask (p : PeerTable) : Nat :=
  (List.finRange 8).foldl (fun a i => a + if (vget p.peers i).drift then 2 ^ i.val else 0) 0

/-- The sticky flag byte of a SUMMARY report (R204). -/
def State.stickyByte (s : State) : Byte :=
  flagByte [(0, s.store.mergedSeen), (1, s.decoders.undersampledSeen), (2, s.peers.driftMask != 0),
    (3, s.words.feedMissedSeen), (4, s.words.latchOverrunSeen), (5, s.mark.missedSeen)]

/-- Every sticky flag cleared, each peer's DRIFT among them (R182). -/
def State.clearSticky (s : State) : State :=
  { s with
    store := { s.store with mergedSeen := false }
    decoders := { s.decoders with undersampledSeen := false }
    peers := { s.peers with peers := s.peers.peers.map fun p => { p with drift := false } }
    words := { s.words with feedMissedSeen := false, latchOverrunSeen := false }
    mark := { s.mark with missedSeen := false } }

end Sys2Proof.Machine
end

