-- ==== Sys2Proof/Machine/FrontEnd.lean ====
section
/-! DEFINITION. The front end (chapter 1): comparators, the deglitch filter, sample boundaries, the activity mask and
loads; and the meanings of COMPARATOR_STATE_CHANGE and FILTERED_LEVEL_CHANGE. -/

namespace Sys2Proof.Machine

/-! ## Comparators (R3, R4) -/

/-- Half the hysteresis of a code, in microvolts (1.2). -/
def halfHysteresis (code : BitVec 2) : Int :=
  match code.toNat with
  | 0 => 0
  | 1 => 20000
  | 2 => 40000
  | _ => 80000

/-- The rising point of a bank, in microvolts (R3). -/
def FrontEnd.risingPoint (fe : FrontEnd) (b : Fin 2) : Int :=
  (vget fe.switchThreshold b).toNat * 20000 + halfHysteresis (vget fe.switchHysteresis b)

/-- The falling point of a bank, in microvolts (R3). -/
def FrontEnd.fallingPoint (fe : FrontEnd) (b : Fin 2) : Int :=
  (vget fe.switchThreshold b).toNat * 20000 - halfHysteresis (vget fe.switchHysteresis b)

/-- The comparator state of a channel with its input where it is (R3). -/
def FrontEnd.compare (fe : FrontEnd) (c : Chan) : Bool :=
  if fe.risingPoint (bank c) < vget fe.probe c then true
  else if vget fe.probe c < fe.fallingPoint (bank c) then false
  else chanBit fe.comparator c

/-- A probe input moves to a voltage, and the comparator follows by R3. -/
def FrontEnd.input (fe : FrontEnd) (c : Chan) (microvolts : Int) : FrontEnd :=
  let fe := { fe with probe := vset fe.probe c microvolts }
  { fe with comparator := setChan fe.comparator c (fe.compare c) }

/-! ## The deglitch filter (R5) -/

/-- Bank presence of a channel (R1). -/
def FrontEnd.chanPresent (fe : FrontEnd) (c : Chan) : Bool := vget fe.present (bank c)

/-- The deglitch setting N of a channel's bank (1.3). -/
def FrontEnd.deglitchOf (fe : FrontEnd) (c : Chan) : BitVec 2 := vget fe.deglitch (bank c)

/-- The registered value of a channel differs from its filtered level. -/
def FrontEnd.differs (fe : FrontEnd) (c : Chan) : Bool := chanBit fe.registered c != chanBit fe.filtered c

/-- The third case of R5: the value differs and the hold count is at or above N. An absent bank's channels stay LOW
(R2). -/
def FrontEnd.changeDue (fe : FrontEnd) (c : Chan) : Bool :=
  fe.chanPresent c && fe.differs c && decide ((fe.deglitchOf c).toNat ≤ (vget fe.hold c).toNat)

/-- The hold count after a tick (R5): 0 where the value equals the level, one more below N, else as it was until the
filtered change of that tick sets it to 0. -/
def FrontEnd.nextHold (fe : FrontEnd) (c : Chan) : BitVec 2 :=
  if !fe.chanPresent c || !fe.differs c then 0
  else if fe.changeDue c then vget fe.hold c
  else vget fe.hold c + 1

/-- What the front end does at every tick: the switch points take the codes in force, the comparators settle and are
registered, and the filter runs one step; the channels whose level is to change are noted (R3–R5, R12). -/
def FrontEnd.tick (fe : FrontEnd) : FrontEnd :=
  let fe := { fe with switchThreshold := fe.threshold, switchHysteresis := fe.hysteresis }
  let fe := { fe with comparator := chanSet fe.compare }
  let fe := { fe with registered := fe.comparator }
  { fe with
    hold := Vector.ofFn fe.nextHold
    changing := chanSet fe.changeDue }

/-- A channel's filtered level takes the registered value (R5, R8). -/
def FrontEnd.changeLevel (fe : FrontEnd) (c : Chan) : FrontEnd :=
  { fe with
    filtered := setChan fe.filtered c (chanBit fe.registered c)
    hold := vset fe.hold c 0
    changing := setChan fe.changing c false
    changes := vmod fe.changes c fun n => if n = 0 then 1 else 2 }

/-! ## Boundaries (R6–R10) -/

/-- One element of the sampled stream (R9). -/
structure Element where
  boundary : StationTime
  levels : ChanSet
  glitch : ChanSet
  deriving DecidableEq, Repr

/-- The glitch set at a boundary: the channels whose change count is 2 (R8). -/
def FrontEnd.glitchSet (fe : FrontEnd) : ChanSet := chanSet fun c => vget fe.changes c == 2

/-- The element of the boundary at this tick (R7, R8). -/
def FrontEnd.element (fe : FrontEnd) (now : StationTime) : Element :=
  { boundary := now, levels := fe.filtered, glitch := fe.glitchSet }

/-- The front end after it has delivered the element of the boundary at `now` (R6, R8, R10). -/
def FrontEnd.deliver (fe : FrontEnd) (now : StationTime) : FrontEnd :=
  { fe with
    activity := fe.activity ||| (fe.lastLevels ^^^ fe.filtered) ||| fe.glitchSet
    lastLevels := fe.filtered
    changes := Vector.replicate 16 0
    lastBoundary := some now
    nextBoundary := after now (period fe.rate) }

/-- This tick is a sample boundary not yet delivered, and the filter step of the tick is complete (R6, R7). -/
def State.boundaryDue (s : State) : Bool := s.time == s.frontEnd.nextBoundary && s.frontEnd.changing == 0

/-! ## Loads (R11, R12) -/

/-- A load of seven values: they govern from the next tick, and the next boundary is the first multiple of the new
period after this tick (R12). -/
def FrontEnd.load (fe : FrontEnd) (now : StationTime) (g : General) : FrontEnd :=
  { fe with
    rate := g.rate
    threshold := g.threshold
    hysteresis := g.hysteresis
    deglitch := g.deglitch
    nextBoundary := boundaryAfter now (period g.rate) }

/-- The front end takes in a plan's GENERAL values (R12). -/
def State.load (s : State) (p : Plan) : State := { s with frontEnd := s.frontEnd.load s.time p.general }

/-! ## Meanings -/

/-- COMPARATOR_STATE_CHANGE (R3): a probe input moves, and the channel's comparator follows it; the filter sees it at
the next tick edge (R4). -/
def execComparatorStateChange (ch : Chan) (microvolts : Int) (s : State) : Host.Outcome State Fault Refusal :=
  .next { s with frontEnd := s.frontEnd.input ch microvolts }

/-- FILTERED_LEVEL_CHANGE (R5): the filtered level of a channel takes the registered value, the hold count becomes 0
and the change count rises (R8). It arises only where the filter step of this tick calls for it. -/
def execFilteredLevelChange (ch : Chan) (s : State) : Host.Outcome State Fault Refusal :=
  .next (if chanBit s.frontEnd.changing ch then { s with frontEnd := s.frontEnd.changeLevel ch } else s)

end Sys2Proof.Machine
end

