-- ==== Sys2Proof/Machine/TxQueue.lean ====
section
/-! DEFINITION. The transmit queue (8.3): its order, its room, placing, displacing, returning and withdrawing frames.
What a frame's result does at its originator is Machine/Results.lean. -/

namespace Sys2Proof.Machine

/-- The queue has room (R146): fewer than 8 frames, and the link JOINING, NORMAL or CAUTIOUS. -/
def Bus.hasRoom (b : Bus) : Bool := decide (b.queue.length < Config.txQueueFrames) && !b.link.silent

/-- A frame put in its place in the queue's order: by kind, and within one kind by the order of placing (R146). -/
def insertFrame (e : QEntry) : List QEntry → List QEntry
  | [] => [e]
  | x :: l => if x.frame.kind ≤ e.frame.kind then x :: insertFrame e l else e :: x :: l

/-- The entry with this id is the one on the wire. -/
def Bus.isOnWire (b : Bus) (e : QEntry) : Bool := b.onWire == some e.id

/-- A frame placed in the transmit queue (R146). -/
def State.enqueue (s : State) (o : Origin) (f : TxFrame) : State :=
  { s with
    bus := { s.bus with queue := insertFrame { id := s.order, origin := o, frame := f } s.bus.queue }
    order := s.order + 1 }

/-! ## Feeds waiting for a place -/

/-- One of the two queues. -/
def Words.queue (w : Words) (q : QueueId) : WQueue :=
  match q with
  | .a => w.qa
  | .b => w.qb

/-- The word memory with one of its queues replaced. -/
def Words.setQueue (w : Words) (q : QueueId) (x : WQueue) : Words :=
  match q with
  | .a => { w with qa := x }
  | .b => { w with qb := x }

/-- A feed enters DRAINING, its timer stopped; its wait is counted from now unless it was draining already (R129). -/
def Feed.drain (f : Feed) (order : Nat) : Feed :=
  { f with
    state := .draining
    timer := none
    since := if f.state = .draining then f.since else order }

/-! ## Returned frames (R148, R150) -/

/-- The kind of a note of the session, from its note type (R204). -/
def noteKindOf (f : TxFrame) : NoteKind :=
  if byteAt f.payload 0 = 0 then .change else if byteAt f.payload 0 = 1 then .refusal else .closure

/-- A note of this kind gives way to a newer one of its kind that waits, or that was returned before it: of two queued
notes the newer is displaced first (R51, R148, log entry 14). -/
def Session.holdsNewer (x : Session) (f : TxFrame) : Bool :=
  noteKindOf f != .closure &&
    (x.notes.any (fun n => n.kind == noteKindOf f) || x.returned.any fun h => noteKindOf h.frame == noteKindOf f)

/-- A displaced frame comes back to its originator as not yet sent, which keeps it and waits to place it again. Frames
of one kind are displaced newest first, so a list of returned notes, feed frames or reply parts takes the next at its
front and keeps the order in which they were made (log entries 14, 18, 60); the wait of each is counted from its return
(8.3.1). DESIGN CHOICE (log entry 14): a closure note of an earlier session, still queued at an accepted ARM and
displaced after it, is kept and placed again like any other. A feed that is OFF drops the frame (R127, log entry 18); a
TIME_NOTE that waited for this one's result has the same content and goes with it (log entry 15). No frame has a kind
below MARK_NOTE's, so a MARK_NOTE is never displaced. -/
def State.returnFrame (s : State) (e : QEntry) : State :=
  let held : Held := { since := s.order, origin := e.origin, frame := e.frame }
  let s := s.tickOrder
  match e.origin with
  | .markUnit => s
  | .timeNote => { s with peers := { s.peers with noteReturned := some held, noteWaiting := false } }
  | .rollCall =>
    { s with peers := { s.peers with rollDue := some { since := held.since, answer := bit (byteAt e.frame.payload 0) 7 } } }
  | .session =>
    if s.session.holdsNewer e.frame then s
    else { s with session := { s.session with returned := held :: s.session.returned } }
  | .feed q =>
    let wq := s.words.queue q
    if wq.feed.state = .off then s
    else
      let feed := wq.feed.drain held.since
      { s with words := s.words.setQueue q { wq with feed := { feed with returned := e.frame :: feed.returned } } }
  | .askPart _ | .askRefusal | .askStatus =>
    { s with asks := { s.asks with returned := held :: s.asks.returned } }
  | .viewAsk _ => { s with view := { s.view with asks := s.view.asks ++ [held] } }
  | .viewStop => { s with view := { s.view with stops := s.view.stops ++ [held] } }
  | .viewNote => { s with view := { s.view with note := if s.view.note.isNone then some held else s.view.note } }

/-! ## MARK_NOTE and TIME_NOTE (R148) -/

/-- The frame whose place a note of this kind takes in a full queue (R148): the most recently placed one of the highest
kind present, among the frames not on the wire whose kind is higher. It is the last such frame in the queue's order. -/
def Bus.displaceable (b : Bus) (kind : BitVec 4) : Option QEntry :=
  (b.queue.filter fun e => decide (kind < e.frame.kind) && !b.isOnWire e).getLast?

/-- A MARK_NOTE, or a TIME_NOTE not placed by replacement, is offered to the queue (R148): placed where there is room,
placed over a displaced frame where the queue is full, otherwise not placed, which its originator takes as a spoiled
frame and drops (R147). -/
def State.placeUrgent (s : State) (o : Origin) (f : TxFrame) : State :=
  if s.bus.link.silent then s
  else if s.bus.queue.length < Config.txQueueFrames then s.enqueue o f
  else
    match s.bus.displaceable f.kind with
    | none => s
    | some e =>
      let s := { s with bus := { s.bus with queue := s.bus.queue.filter fun x => x.id != e.id } }
      (s.enqueue o f).returnFrame e

/-- A TIME_NOTE queued, if any. -/
def Bus.queuedTimeNote (b : Bus) : Option QEntry := b.queue.find? fun e => e.origin == .timeNote

/-- The entries of the queue with one entry's frame replaced in its place. -/
def replaceFrame (id : Nat) (f : TxFrame) (l : List QEntry) : List QEntry :=
  l.map fun e => if e.id = id then { e with frame := f } else e

/-- A due TIME_NOTE is offered to the queue (R148, R163): it replaces a queued one, waits at the peer table while the
queued one is on the wire, and otherwise is placed as R148 gives. It is built when it is placed. A returned note that
still waited is replaced by it too, and so is one that waited for the result of the note it replaces (log entry 15). -/
def State.placeTimeNote (s : State) : State :=
  let f := timeNoteFrame s.peers.nextSeq s.peers.lastSent
  let s := { s with peers := { s.peers with noteReturned := none } }
  if s.bus.link.silent then s
  else
    match s.bus.queuedTimeNote with
    | none => s.placeUrgent .timeNote f
    | some e =>
      if s.bus.isOnWire e then { s with peers := { s.peers with noteWaiting := true } }
      else
        { s with
          bus := { s.bus with queue := replaceFrame e.id f s.bus.queue }
          peers := { s.peers with noteWaiting := false } }

/-! ## Withdrawing and clearing (R149, R154, R155) -/

/-- The frames for which `p` holds leave the queue, except the one on the wire (R149). -/
def State.withdraw (s : State) (p : QEntry → Bool) : State :=
  { s with bus := { s.bus with queue := s.bus.queue.filter fun e => s.bus.isOnWire e || !p e } }

/-- The frame on the wire, if any. -/
def Bus.wireFrame (b : Bus) : Option QEntry := b.queue.find? fun e => b.isOnWire e

/-- The frame on the wire leaves the queue at its result (R144). -/
def State.dropWire (s : State) : State :=
  { s with bus := { s.bus with queue := s.bus.queue.filter fun e => !s.bus.isOnWire e, onWire := none } }

end Sys2Proof.Machine
end

