-- ==== Sys2Proof/Machine/WordMemory.lean ====
section
/-! DEFINITION. The word filter, the word queues, the latch slots and the live feeds (chapter 7), and the meaning of
FEED_TIMEOUT. -/

namespace Sys2Proof.Machine

/-! ## The filter (R118, R119) -/

/-- The match rule applied to the selected field (R118). -/
def MatchRule.passes (r : MatchRule) (v1 v2 x : BitVec 16) : Bool :=
  match r with
  | .range => decide (v1 ≤ x) && decide (x ≤ v2)
  | .pair => x == v1 || x == v2
  | .mask => x &&& v2 == v1 &&& v2

/-- The field test (R118): a word without value2 fails it under VALUE2. -/
def FilterEntry.fieldTest (e : FilterEntry) (w : Word) : Bool :=
  match (if e.value2 then w.value2 else some w.value) with
  | none => false
  | some x => e.rule.passes e.v1 e.v2 x

/-- An entry matches a word when it is enabled and its decoder, kind and field tests pass (R118). -/
def FilterEntry.admits (e : FilterEntry) (w : Word) : Bool :=
  e.enabled && e.decoders.getLsbD w.decoder.val && e.kinds.getLsbD w.kind.code && e.fieldTest w

/-- The first enabled entry that matches, in order of number (R119). -/
def matchedEntry (v : Vector FilterEntry 24) (w : Word) : Option (Fin 24) :=
  (List.finRange 24).find? fun i => (vget v i).admits w

/-! ## Feeds (R127–R129, R132) -/

/-- Level L of a feed (R127, R202). -/
def FeedCfg.level (f : FeedCfg) : Nat :=
  match f.levelCode.toNat with
  | 0 => 1
  | 1 => 4
  | 2 => 8
  | _ => 16

/-- The unfed count (R128). -/
def WQueue.unfed (q : WQueue) : Nat := q.words.length - q.fed

/-- A feed after a word has been stored, with the unfed count that leaves (R129). -/
def Feed.stored (f : Feed) (now : StationTime) (order unfed : Nat) : Feed :=
  match f.cfg, f.state with
  | some c, .quiet =>
    if c.level = 1 then f.drain order
    else { f with state := .collecting, timer := some (after now (c.timeout * 4096)) }
  | some c, .collecting => if c.level ≤ unfed then f.drain order else f
  | _, _ => f

/-- A feed with its draining or collecting over (R129, R130). -/
def Feed.rest (f : Feed) : Feed := { f with state := .quiet, timer := none }

/-- A feed after a removal (R129, R132): left with no unfed word, a COLLECTING feed becomes QUIET, and a DRAINING one
too once it has no returned frame. -/
def Feed.removed (f : Feed) (unfed : Nat) : Feed :=
  if unfed = 0 ∧ (f.state = .collecting ∨ (f.state = .draining ∧ f.returned = [])) then f.rest else f

/-- A queue after `n` of its unfed words have been removed (R132): each counts one feed-missed word where the feed is
enabled. -/
def WQueue.countMissed (q : WQueue) (n : Nat) : WQueue :=
  if q.feed.state = .off then q
  else { q with feedMissed := q.feedMissed + BitVec.ofNat 32 n, feed := q.feed.removed q.unfed }

/-- Removing unfed words raises FEED_MISSED where the feed is enabled (R132, R135). -/
def WQueue.raisesMissed (q : WQueue) (n : Nat) : Bool := decide (q.feed.state ≠ .off) && decide (0 < n)

/-- The head of a queue removed by overwriting (R122, R128). -/
def WQueue.dropHead (q : WQueue) : WQueue :=
  let fedOne := decide (0 < q.fed)
  let q' := { q with words := q.words.drop 1, fed := q.fed - 1, overwritten := q.overwritten + 1 }
  if fedOne then q' else q'.countMissed 1

/-- A word appended at the tail, unfed (R122). -/
def WQueue.append (q : WQueue) (w : Word) (now : StationTime) (order : Nat) : WQueue :=
  let q' := { q with words := q.words ++ [w], enqueued := q.enqueued + 1 }
  { q' with feed := q'.feed.stored now order q'.unfed }

/-- A word of segment `seg` that began before `base` (R122, R123). -/
def Word.before (w : Word) (seg : Fin 8) (base : StationTime) : Bool := w.seg == seg && earlier w.start base

/-- A trim signal taken by one queue (R123). -/
def WQueue.trim (q : WQueue) (seg : Fin 8) (base : StationTime) : WQueue :=
  let fedGone := ((q.words.take q.fed).filter fun w => w.before seg base).length
  let unfedGone := ((q.words.drop q.fed).filter fun w => w.before seg base).length
  let q' := { q with
    words := q.words.filter fun w => !w.before seg base
    fed := q.fed - fedGone
    trimmed := q.trimmed + BitVec.ofNat 32 (fedGone + unfedGone) }
  if unfedGone = 0 then q' else q'.countMissed unfedGone

/-- Whether a trim signal removes an unfed word from a queue. -/
def WQueue.trimMisses (q : WQueue) (seg : Fin 8) (base : StationTime) : Bool :=
  q.raisesMissed ((q.words.drop q.fed).filter fun w => w.before seg base).length

/-- A trim signal (R123): both queues take it, the latch slots do not. -/
def Words.trim (w : Words) (seg : Fin 8) (base : StationTime) : Words :=
  { w with
    qa := w.qa.trim seg base
    qb := w.qb.trim seg base
    feedMissedSeen := w.feedMissedSeen || w.qa.trimMisses seg base || w.qb.trimMisses seg base }

/-! ## Routing (R119, R122, R125) -/

/-- A word offered to a queue (R122). -/
def State.offerWord (s : State) (q : QueueId) (w : Word) : State :=
  let ws := s.words
  let wq := ws.queue q
  if earlier w.start (vget s.store.headers w.seg).base then
    { s with words := { ws with trimmedAtCompletion := ws.trimmedAtCompletion + 1 } }
  else if wq.words.length < wq.capacity then
    { s with words := ws.setQueue q (wq.append w s.time s.order), order := s.order + 1 }
  else if wq.overwrite ∧ 0 < wq.capacity then
    { s with
      words := { ws.setQueue q (wq.dropHead.append w s.time s.order) with
        feedMissedSeen := ws.feedMissedSeen || (wq.fed == 0 && wq.raisesMissed 1) }
      order := s.order + 1 }
  else { s with words := { ws with lost := ws.lost + 1 } }

/-- The latch slot a destination names; slots above 7 are refused at ARM (R43). -/
def latchSlot (n : BitVec 4) : Fin 8 := readStation n.toNat

/-- A word written into a latch slot (R125). -/
def Words.latch (ws : Words) (slot : Fin 8) (w : Word) : Words :=
  let l := vget ws.latches slot
  { ws with
    latches := vset ws.latches slot
      { word := some w, isNew := true, overrun := if l.isNew then bump16 l.overrun else l.overrun }
    latchOverrunSeen := ws.latchOverrunSeen || l.isNew
    latched := ws.latched + 1 }

/-- A word sent to its destination (R119). -/
def State.routeTo (s : State) (d : Dest) (w : Word) : State :=
  match d with
  | .queue q => s.offerWord q w
  | .latch n => { s with words := s.words.latch (latchSlot n) w }
  | .discard => { s with words := { s.words with discarded := s.words.discarded + 1 } }

/-- The default destination of a decoder unit; DISCARD before the first ARM, when no word comes (R117). -/
def State.defaultDest (s : State) (u : Fin 4) : Dest :=
  match (vget s.decoders.units u).cfg with
  | some p => p.dest
  | none => .discard

/-- The entry that matches a word, with its number (R119). -/
def State.matchWord (s : State) (w : Word) : Option (Fin 24 × FilterEntry) :=
  match s.words.filters with
  | none => none
  | some v => (matchedEntry v w).map fun i => (i, vget v i)

/-- The filter takes a completed word whole (R119): it counts it, writes the matched entry and routes it. -/
def State.filterWord (s : State) (w : Word) : State :=
  let s := { s with words := { s.words with completed := s.words.completed + 1 } }
  match s.matchWord w with
  | some (i, e) => s.routeTo e.dest { w with matched := some i }
  | none => s.routeTo (s.defaultDest w.decoder) { w with matched := none }

/-- The entry that raises a cue for a word: the matched entry, when it carries the cue mark (R120). -/
def State.cueOf (s : State) (w : Word) : Option (Fin 24) :=
  match s.matchWord w with
  | some (i, e) => if e.cue then some i else none
  | none => none

/-! ## ARM (R117, R121, R127) -/

/-- A feed after an accepted ARM (R127, R136); its own number as target is taken as broadcast. -/
def Feed.arm (c : FeedCfg) (own : Station) : Feed where
  cfg := some { c with target := if c.target = some own then none else c.target }
  state := if c.enabled then .quiet else .off
  timer := none
  returned := []
  seq := 0
  since := 0

/-- A queue after an accepted ARM: emptied and sized, counters 0 (R121, R133). -/
def WQueue.arm (c : QueueCfg) (own : Station) : WQueue :=
  { WQueue.reset with capacity := c.capacity, overwrite := c.overwrite, feed := Feed.arm c.feed own }

/-- The word filter and word memory after an accepted ARM (R117, R121, R125, R127, R133, R136). -/
def Words.arm (w : Words) (p : Plan) (own : Station) : Words :=
  { Words.reset with
    filters := some p.filters
    qa := WQueue.arm p.qa own
    qb := WQueue.arm p.qb own
    feedMissedSeen := w.feedMissedSeen
    latchOverrunSeen := w.latchOverrunSeen }

/-! ## Placing a feed's frames (R130) -/

/-- A feed has a frame to place: it is DRAINING and a frame was returned or a word is unfed (R130). -/
def WQueue.feedWaits (q : WQueue) : Bool :=
  decide (q.feed.state = .draining) && (!q.feed.returned.isEmpty || decide (0 < q.unfed))

/-- The new frame a feed builds: the oldest unfed words, up to 3 of them (R130). -/
def WQueue.buildNote (q : WQueue) (id : QueueId) : TxFrame :=
  wordsNoteFrame id (q.feed.cfg.bind (·.target)) q.feed.seq q.feedMissed ((q.words.drop q.fed).take 3)

/-- The frame a feed places next: a returned one before any new one (R130). -/
def WQueue.nextNote (q : WQueue) (id : QueueId) : TxFrame :=
  match q.feed.returned with
  | f :: _ => f
  | [] => q.buildNote id

/-- The feed with that frame placed; draining ends when nothing is left to place (R130). -/
def WQueue.notePlaced (q : WQueue) (order : Nat) : WQueue :=
  let q' :=
    match q.feed.returned with
    | _ :: l => { q with feed := { q.feed with returned := l, since := order } }
    | [] =>
      { q with
        fed := q.fed + min 3 q.unfed
        feed := { q.feed with seq := q.feed.seq + 1, since := order } }
  if q'.feed.returned = [] ∧ q'.unfed = 0 then { q' with feed := q'.feed.rest } else q'

/-! ## Meaning -/

/-- The feed timer of a queue has expired in COLLECTING (R129). -/
def State.feedTimerDue (s : State) (q : QueueId) : Bool :=
  let f := (s.words.queue q).feed
  decide (f.state = .collecting) && timerDue s.time f.timer

/-- FEED_TIMEOUT (R129): a COLLECTING feed whose timer expires is due and enters DRAINING. -/
def execFeedTimeout (q : QueueId) (s : State) : Host.Outcome State Fault Refusal :=
  .next
    (if s.feedTimerDue q then
      { s with
        words := s.words.setQueue q { s.words.queue q with feed := (s.words.queue q).feed.drain s.order }
        order := s.order + 1 }
    else s)

end Sys2Proof.Machine
end

