-- ==== Sys2Proof/Machine/Peers.lean ====
section
/-! DEFINITION. The peer table (chapter 9): presence, anchors and skew, the conversion of times, and what makes a
ROLL_CALL or a TIME_NOTE due; and the meaning of TIME_NOTE_DUE. -/

namespace Sys2Proof.Machine

/-! ## Skew and conversion (R166–R168) -/

/-- The nearest-tick rounding of `x / 2^24`, halves upward: floor((x + 2^23) / 2^24) (R167, R172). -/
def round24 (x : Int) : Int := (x + 2 ^ 23) / 2 ^ 24

/-- Forward conversion of a remote time to local time by an anchor and a skew (R167). -/
def forward (a : Anchor) (k : Int) (t : StationTime) : StationTime :=
  let d := tdiff t a.remote
  shift a.loc (d + round24 (d * k))

/-- Inverse conversion of a local time into the peer's time (R168). -/
def inverse (a : Anchor) (k : Int) (t : StationTime) : StationTime :=
  let e := tdiff t a.loc
  shift a.remote (e - round24 (e * k))

/-- The skew a conversion uses: 0 until the skew is valid (R166). -/
def Peer.usedSkew (p : Peer) : Int := if p.skewValid then p.skew else 0

/-- The skew estimate before clamping, rounded toward zero (R166). -/
def skewEstimate (dR dL : Int) : Int := ((dL - dR) * 2 ^ 24).tdiv dR

/-- The skew updated from a span (R166): clamped with DRIFT, taken as it is when none was valid, else smoothed. -/
def Peer.updateSkew (p : Peer) (dR dL : Int) : Peer :=
  let e := skewEstimate dR dL
  let k := clampSkew e
  { p with
    skew := if p.skewValid then (3 * p.skew + k).tdiv 4 else k
    skewValid := true
    drift := p.drift || decide (8192 < e.natAbs) }

/-- An anchor taken (R165). DEDUCED (log entry 57): a span of 2^20 ticks or more has no upper bound here but the signed
range of a difference, so a very large positive one updates the skew and moves the base like any other. -/
def Peer.takeAnchor (p : Peer) (a : Anchor) : Peer :=
  match p.current, p.base with
  | some _, some b =>
    let dR := tdiff a.remote b.remote
    let dL := tdiff a.loc b.loc
    if dR < 2 ^ 20 then { p with current := some a }
    else { p.updateSkew dR dL with current := some a, base := some a }
  | _, _ => { p with current := some a, base := some a }

/-- A TIME_NOTE with sequence `n`, carried previous stamp and own start-edge stamp taken from a peer (R164). -/
def Peer.takeNote (p : Peer) (n : Byte) (prev : Option StationTime) (stamp : StationTime) : Peer :=
  let p' := { p with chain := some { seq := n, stamp := stamp } }
  match p.chain, prev with
  | some c, some r => if c.seq = n - 1 then p'.takeAnchor { remote := r, loc := c.stamp } else p'
  | _, _ => p'

/-! ## Presence (R160) -/

/-- A peer's record once it goes ABSENT: everything but DRIFT cleared (R160). -/
def Peer.goAbsent (p : Peer) : Peer := { Peer.empty with drift := p.drift }

/-- A peer's time relation cleared (R162). -/
def Peer.clearRelation (p : Peer) : Peer :=
  { p with chain := none, current := none, base := none, skew := 0, skewValid := false }

/-- A peer heard: PRESENT, its presence timer restarted from the frame's start-edge stamp (R160). -/
def Peer.heard (p : Peer) (stamp : StationTime) : Peer :=
  { p with present := true, timer := some (after stamp Config.presenceTicks) }

/-- The presence timer of a PRESENT peer has expired (R160). -/
def Peer.timedOut (p : Peer) (now : StationTime) : Bool := p.present && timerDue now p.timer

/-- The peer table with one record changed. -/
def State.setPeer (s : State) (i : Station) (p : Peer) : State :=
  { s with peers := { s.peers with peers := vset s.peers.peers i p } }

/-- A peer's record. -/
def State.peer (s : State) (i : Station) : Peer := vget s.peers.peers i

/-! ## ROLL_CALL and TIME_NOTE of this station (R161, R163) -/

/-- The cadence bit by its strap code (R137). -/
def cadenceBit (cd : BitVec 2) : Nat := 20 + 2 * cd.toNat

/-- A ROLL_CALL is in the transmit queue without a result yet. -/
def Bus.rollQueued (b : Bus) : Bool := b.queue.any fun e => e.origin == .rollCall

/-- A cause makes a ROLL_CALL due (R161): at most one is due or queued, and it is built with the answer mark when
every cause was an answer. -/
def State.rollDue (s : State) (answer : Bool) : State :=
  match s.peers.rollDue with
  | some r => { s with peers := { s.peers with rollDue := some { r with answer := r.answer && answer } } }
  | none =>
    if s.bus.rollQueued then s
    else
      { s with
        peers := { s.peers with rollDue := some { since := s.order, answer := answer } }
        order := s.order + 1 }

/-- The ROLL_CALL as it is built when placed (R161, 9.4). -/
def State.buildRollCall (s : State) (answer : Bool) : TxFrame :=
  rollCallFrame s.bus.own answer s.frontEnd.present s.bus.panel (cadenceBit s.bus.cadence)

/-- The cadence bit toggles at the tick that ends at this time (R163). -/
def cadenceToggles (cd : BitVec 2) (now : StationTime) : Bool := now.toNat % 2 ^ cadenceBit cd == 0

/-- TIME_NOTE_DUE (R163): the toggle of the cadence bit at this tick makes a TIME_NOTE due, and it is placed under
R148. -/
def execTimeNoteDue (s : State) : Host.Outcome State Fault Refusal :=
  .next
    (if s.peers.noteDue then State.placeTimeNote { s with peers := { s.peers with noteDue := false } } else s)

end Sys2Proof.Machine
end

