-- ==== Sys2Proof/Machine/Reduce.lean ====
section
/-! DEFINITION. The reduction engine's arithmetic (10.3, 10.4): column boundaries, column classes and runs, boxes, and
the cutting of a reply into parts. -/

namespace Sys2Proof.Machine

/-! ## Columns (R172) -/

/-- The unforced offset of boundary `c` (R172). -/
def rawOffset (w : Nat) (k : Int) (c : Nat) : Int := c * w + round24 (c * w * k)

/-- The offset of boundary `c`, at least one tick above the one before (R172). -/
def columnOffset (w : Nat) (k : Int) : Nat → Int
  | 0 => rawOffset w k 0
  | c + 1 =>
    let prev := columnOffset w k c
    let o := rawOffset w k (c + 1)
    if o ≤ prev then prev + 1 else o

/-- Boundary `b_c` of an entry (R172). -/
def AskEntry.boundary (e : AskEntry) (c : Nat) : StationTime := shift e.start (columnOffset e.w e.k c)

/-! ## Records of a segment (R15, R16) -/

/-- Capacity of each segment (R15). -/
def Layout.capacity (l : Layout) : Nat := Config.recordPlaces / 2 ^ l.segCode.toNat

/-- The place `n` steps after the oldest position of segment `seg`, wrapping within the segment (R15, R23). -/
def segPlace (capacity : Nat) (seg : Fin 8) (oldest n : Nat) : Nat :=
  seg.val * capacity + (oldest - seg.val * capacity + n) % capacity

/-- Times of records after one at `t` (R16): each is the one before plus its delta times the period. -/
def recordTimes (p : Nat) (t : StationTime) : List Rec → List (StationTime × Rec)
  | [] => []
  | r :: l => let t' := after t (r.delta.toNat * p); (t', r) :: recordTimes p t' l

/-- The records a segment holds, oldest first, each with its time: the oldest has the base time, and its delta is not
used (R15, R16). -/
def Store.records (st : Store) (l : Layout) (seg : Fin 8) : List (StationTime × Rec) :=
  let h := vget st.headers seg
  let rs := (List.range h.count).filterMap fun n => st.read (segPlace l.capacity seg h.oldest n)
  match rs with
  | [] => []
  | r :: rest => (h.base, r) :: recordTimes (period l.rate) h.base rest

/-! ## Classes and runs (R173, R174) -/

/-- The level of a channel in the last record at or before `t`, `lvl` standing for what came before the list. -/
def levelAt (ch : Chan) (t : StationTime) (lvl : Bool) : List (StationTime × Rec) → Bool
  | [] => lvl
  | (u, r) :: l => if notAfter u t then levelAt ch t (chanBit r.levels ch) l else lvl

/-- Some record strictly between `lo` and `hi` gives the channel a level different from that of the record before. -/
def togglesIn (ch : Chan) (lo hi : StationTime) (prev : Bool) : List (StationTime × Rec) → Bool
  | [] => false
  | (u, r) :: l =>
    (earlier lo u && earlier u hi && chanBit r.levels ch != prev) || togglesIn ch lo hi (chanBit r.levels ch) l

/-- Some record in [lo, hi) has the channel in its glitch set. -/
def glitchIn (ch : Chan) (lo hi : StationTime) (l : List (StationTime × Rec)) : Bool :=
  l.any fun x => notAfter lo x.1 && earlier x.1 hi && chanBit x.2.glitch ch

/-- Class and glitch flag of the column [b0, b1) of a segment with base time `base` and close time `close` (R173). -/
def columnClass (rs : List (StationTime × Rec)) (base close : StationTime) (ch : Chan) (b0 b1 : StationTime) :
    ColClass × Bool :=
  let lo := later b0 base
  let hi := sooner b1 close
  if !earlier lo hi then (.none, false)
  else
    let first := match rs with | [] => false | (_, r) :: _ => chanBit r.levels ch
    let cls :=
      if togglesIn ch lo hi first rs then .toggle else if levelAt ch lo first rs then .high else .low
    (cls, glitchIn ch lo hi rs)

/-- Adjacent columns of equal class and glitch flag form one run (R174). -/
def packRuns : List (ColClass × Bool) → List Run
  | [] => []
  | (c, g) :: l =>
    match packRuns l with
    | [] => [{ cls := c, glitch := g, length := 1 }]
    | r :: rest =>
      if r.cls = c ∧ r.glitch = g then { r with length := r.length + 1 } :: rest
      else { cls := c, glitch := g, length := 1 } :: r :: rest

/-- The columns of a REDUCE entry (R172, R173); an absent bank's channel is NONE in every column. -/
def State.reduceColumns (s : State) (e : AskEntry) (seg : Fin 8) (ch : Chan) : List (ColClass × Bool) :=
  match s.store.layout with
  | none => List.replicate e.columns (.none, false)
  | some lay =>
    if s.frontEnd.chanPresent ch then
      let h := vget s.store.headers seg
      let rs := s.store.records lay seg
      (List.range e.columns).map fun c =>
        columnClass rs h.base (h.close.getD h.base) ch (e.boundary c) (e.boundary (c + 1))
    else List.replicate e.columns (.none, false)

/-! ## Boxes (R175, R176) -/

/-- Order of the words of a WORDS entry: by start time, then by end time; the sort keeps queue A before queue B and
the order within a queue (R175). -/
def wordBefore (a b : Word) : Bool :=
  earlier a.start b.start || (a.start == b.start && notAfter a.stop b.stop)

/-- A word put in its place in that order, after those it does not come before. -/
def insertWord (w : Word) : List Word → List Word
  | [] => [w]
  | x :: l => if wordBefore x w then x :: insertWord w l else w :: x :: l

/-- The words a WORDS entry reads, in order (R175). -/
def State.askedWords (s : State) (seg : Fin 8) (dec : Fin 4) : List Word :=
  ((s.words.qa.words ++ s.words.qb.words).filter fun w => w.decoder == dec && w.seg == seg).foldl
    (fun l w => insertWord w l) []

/-- The largest column from 0 to `n` whose boundary is at or before `t` (R175). -/
def columnOf (b : Nat → StationTime) (t : StationTime) : Nat → Nat
  | 0 => 0
  | n + 1 => if notAfter (b (n + 1)) t then n + 1 else columnOf b t n

/-- The ERROR mark of a word (R175). -/
def Word.isError (w : Word) : Bool :=
  w.kind == .error || w.kind == .brk || w.flags.parity || w.flags.framing || w.flags.short

/-- A word wholly outside the window (R175). -/
def AskEntry.skips (e : AskEntry) (w : Word) : Bool :=
  earlier w.stop (e.boundary 0) || notAfter (e.boundary e.columns) w.start

/-- The box a word would open (R175). -/
def AskEntry.boxOf (e : AskEntry) (w : Word) : Box :=
  let b0 := e.boundary 0
  let bW := e.boundary e.columns
  { first := columnOf e.boundary (later w.start b0) (e.columns - 1)
    last := columnOf e.boundary (sooner w.stop (bW - 1)) (e.columns - 1)
    kind := BitVec.ofNat 8 w.kind.code
    value := w.value.toNat
    clipL := earlier w.start b0
    clipR := notAfter bW w.stop
    error := w.isError
    dense := false
    more := false }

/-- A word's box merged into the box before it, which then holds `held` words (R176). -/
def Box.merge (b x : Box) (held : Nat) : Box :=
  { b with
    dense := true
    value := min 65535 held
    last := max b.last x.last
    clipL := b.clipL || x.clipL
    clipR := b.clipR || x.clipR
    error := b.error || x.error }

/-- Builds boxes from words in order (R176): `done` are the boxes made before `cur`, newest first; `cur` holds `held`
words. The 48th box is a MORE box to the last column, worth the words not yet placed. -/
def AskEntry.build (e : AskEntry) (done : List Box) (cur : Box) (held : Nat) : List Word → List Box
  | [] => (cur :: done).reverse
  | w :: l =>
    let x := e.boxOf w
    if x.first ≤ cur.last then e.build done (cur.merge x (held + 1)) (held + 1) l
    else if done.length + 1 = 47 then
      ({ x with last := e.columns - 1, value := min 65535 (l.length + 1), more := true } :: cur :: done).reverse
    else e.build (cur :: done) x 1 l

/-- The boxes of a WORDS entry (R175, R176). -/
def State.askBoxes (s : State) (e : AskEntry) (seg : Fin 8) (dec : Fin 4) : List Box :=
  match (s.askedWords seg dec).filter fun w => !e.skips w with
  | [] => []
  | w :: l => e.build [] (e.boxOf w) 1 l

/-! ## Parts (R177) -/

/-- The parts of a RUNS reply, 27 runs to a part; the first column of a part is the sum of the run lengths before it.
`fuel` bounds the number of parts. -/
def runParts (tag : Byte) (absent : Bool) : (fuel : Nat) → (index first : Nat) → List Run → List Part
  | 0, _, _, _ => []
  | n + 1, i, c, l =>
    let here := l.take 27
    let rest := l.drop 27
    { tag := tag, outcome := .ok, index := i, first := c, last := rest.isEmpty, absent := absent, data := .runs here } ::
      if rest.isEmpty then [] else runParts tag absent n (i + 1) (c + (here.map (·.length)).sum) rest

/-- The parts of a BOXES reply, 6 boxes to a part; the first column of a later part is one more than the last column
of the box before it. -/
def boxParts (tag : Byte) : (fuel : Nat) → (index first : Nat) → List Box → List Part
  | 0, _, _, _ => []
  | n + 1, i, c, l =>
    let here := l.take 6
    let rest := l.drop 6
    { tag := tag, outcome := .ok, index := i, first := c, last := rest.isEmpty, absent := false, data := .boxes here } ::
      if rest.isEmpty then []
      else boxParts tag n (i + 1) ((match here.getLast? with | some b => b.last | none => 0) + 1) rest

/-- A reply of one part that carries an outcome and no data (R170, R171, R180). -/
def emptyPart (tag : Byte) (words : Bool) (o : OutcomeCode) (index first : Nat) : Part :=
  { tag := tag, outcome := o, index := index, first := first, last := true, absent := false
    data := if words then .boxes [] else .runs [] }

/-! ## Checks and computation (R171) -/

/-- The segment checks (R171): the outcome of the first that fails, in the order given. -/
def State.askCheck (s : State) (e : AskEntry) : Option OutcomeCode :=
  if s.session.state = .idle then some .noSession
  else
    match s.session.active with
    | none => some .noSession
    | some p =>
      if 2 ^ p.general.segCode.toNat ≤ e.seg.toNat then some .range
      else if (if e.words then 4 else 16) ≤ e.index.toNat then some .range
      else if e.columns < 1 ∨ 320 < e.columns then some .range
      else
        match (vget s.store.headers (readStation e.seg.toNat)).state with
        | .empty => some .range
        | .filling | .post => some .live
        | .complete | .cut => none

/-- The reply to an entry that passes every check, computed whole (R171–R177). -/
def State.computeReply (s : State) (e : AskEntry) : List Part :=
  let seg : Fin 8 := readStation e.seg.toNat
  if e.words then boxParts e.tag 8 0 0 (s.askBoxes e seg ⟨e.index.toNat % 4, Nat.mod_lt _ (by decide)⟩)
  else
    let ch := readChan e.index
    runParts e.tag (!s.frontEnd.chanPresent ch) 12 0 0 (packRuns (s.reduceColumns e seg ch))

end Sys2Proof.Machine
end

