-- ==== Sys2Proof/Machine/Raster.lean ====
section
/-! DEFINITION. The raster (11.4): which grey each pixel of the panel has when a pass is drawn, and the frame buffer and
panel pins that follow from it (R193–R197). Where several things are drawn on one pixel the last one drawn stands. -/

namespace Sys2Proof.Machine

/-- A pixel's code: 0 background, 1 light grey, 2 mid-grey, 3 dark (R197). -/
abbrev Grey := BitVec 2

/-- Character codes of a text. -/
def chars (s : String) : List Nat := s.toList.map Char.toNat

/-! ## Text (R193) -/

/-- The characters the panel font has besides the space: 0–9, A–Z, the marks . - + ! : = and d, n, u, m, s (R193). DESIGN
CHOICE (log entry 59): a label byte for one of the five lower-case letters, which are in the font but not among the label
codes of R203, is drawn with its cell. -/
def inFont (c : Nat) : Bool :=
  (decide (48 ≤ c) && decide (c ≤ 57)) || (decide (65 ≤ c) && decide (c ≤ 90)) || (chars ".-+!:=dnums").contains c

/-- Whether a text with its top left at `(row, col)` sets a pixel dark: one cell per 6 columns; a space and a character
outside the font set none. -/
def textAt (text : List Nat) (row col r c : Nat) : Bool :=
  if row ≤ r ∧ r < row + 8 ∧ col ≤ c then
    match text[(c - col) / 6]? with
    | some ch => inFont ch && Config.glyph ch (r - row) ((c - col) % 6)
    | none => false
  else false

/-- Decimal digits of a number. -/
def decimal (n : Nat) : List Nat := (Nat.toDigits 10 n).map Char.toNat

/-- `digits` decimal digits of a number, with leading zeros. -/
def decimalPad (digits n : Nat) : List Nat := (List.range digits).map fun i => 48 + n / 10 ^ (digits - 1 - i) % 10

/-- The fewest hex digits that hold a value, at least one, in capitals (R195). -/
def hexText (n : Nat) : List Nat :=
  (Nat.toDigits 16 n).map fun c => if 97 ≤ c.toNat then c.toNat - 32 else c.toNat

/-! ## Header (R194) -/

/-- The stations listed as having fired for segment `v`, in ascending order (R194). -/
def State.firedStations (s : State) (v : Fin 8) : List Station :=
  (List.finRange 8).filter fun i =>
    if i = s.bus.own then
      match (vget s.store.headers v).cause with
      | some (.sequencer _ _ _ _) => true
      | _ => false
    else
      match (s.peer i).lastFire with
      | some f => f.seg.toNat == v.val
      | none => false

/-- Name of a link state in the header; nothing for NORMAL (R194). -/
def LinkState.headerText : LinkState → List Nat
  | .normal => []
  | .joining => chars " JOINING"
  | .cautious => chars " CAUTIOUS"
  | .detached => chars " DETACHED"
  | .duplicate => chars " DUPLICATE"

/-- The header text (R194). -/
def State.headerText (s : State) (p : Pass) : List Nat :=
  let v := p.window.seg
  let fired := s.firedStations v
  chars "SEG " ++ [48 + v.val] ++
    (if p.zero.isNone then chars " NO TRIG"
    else if fired.isEmpty then []
    else chars " T:" ++ ((fired.map fun (i : Station) => [48 + i.val]).intersperse [32]).flatten) ++
    s.bus.link.headerText

/-! ## Footer (R196) -/

/-- Unit size in ns and its name for a magnitude in ns (R196). -/
def readoutUnit (n : Nat) : Nat × List Nat :=
  if n < 1000 then (1, chars "ns")
  else if n < 10 ^ 6 then (1000, chars "us")
  else if n < 10 ^ 9 then (10 ^ 6, chars "ms")
  else (10 ^ 9, chars "s")

/-- The figure of a magnitude (R196): the integer part, and for units other than ns fraction digits up to four digits
in all, truncated. -/
def readoutFigure (n : Nat) : List Nat :=
  let u := (readoutUnit n).1
  let whole := decimal (n / u)
  let k := 4 - whole.length
  if u = 1 ∨ k = 0 then whole else whole ++ chars "." ++ decimalPad k (n * 10 ^ k / u % 10 ^ k)

/-- The footer readout when both cursors are on (R196). -/
def Window.readout (w : Window) : List Nat :=
  match w.cursorA, w.cursorB with
  | some a, some b =>
    let n := ((max a b) - (min a b)) * w.w * 5
    chars "dT=" ++ (if b < a then chars "-" else []) ++ readoutFigure n ++ (readoutUnit n).2
  | _, _ => []

/-! ## Lanes (R194, R195) -/

/-- The column of a run list that column `c` falls in. -/
def runAt : List Run → Nat → Option Run
  | [], _ => none
  | r :: l, c => if c < r.length then some r else runAt l (c - r.length)

/-- A DONE channel lane at lane row `r`, column `c` (R194). -/
def channelPixel (runs : List Run) (r c : Nat) : Grey :=
  match runAt runs c with
  | none => 0
  | some x =>
    if x.glitch ∧ r = 0 then 2
    else
      match x.cls with
      | .low => if r = 11 then 3 else 0
      | .high => if r = 1 then 3 else 0
      | .toggle => if 1 ≤ r ∧ r ≤ 11 then 3 else 0
      | .none => if (r = 5 ∨ r = 6) ∧ c % 2 = 0 then 1 else 0

/-- How the inside of a box is completed (R195): filled or not, and the text over it. -/
def Box.completion (b : Box) : Bool × List Nat :=
  let width := b.last + 1 - b.first
  if b.more then if 8 ≤ width then (false, chars "+") else (true, [])
  else if b.dense then (true, if b.error ∧ 8 ≤ width then chars "!" else [])
  else if b.error then if 8 ≤ width then (false, chars "!") else (true, [])
  else
    let text := hexText b.value
    if 6 * text.length + 2 ≤ width then (false, text) else (true, [])

/-- A box at lane row `r`, column `c`, a column of its span (R195). -/
def Box.pixel (b : Box) (r c : Nat) : Grey :=
  let width := b.last + 1 - b.first
  let side := (c = b.first ∧ !b.clipL) ∨ (c = b.last ∧ !b.clipR)
  let (fill, text) := b.completion
  if textAt text 2 (b.first + (width - 6 * text.length) / 2) r c then 3
  else if r = 1 ∨ r = 11 ∨ (side ∧ 1 ≤ r ∧ r ≤ 11) then 3
  else if fill ∧ 2 ≤ r ∧ r ≤ 10 then 2
  else 0

/-- A DONE decoder lane at lane row `r`, column `c` (R195). -/
def decoderPixel (boxes : List Box) (r c : Nat) : Grey :=
  match boxes.find? fun b => decide (b.first ≤ c) && decide (c ≤ b.last) with
  | none => 0
  | some b => b.pixel r c

/-- A banner's text (R194). -/
def Banner.text : Banner → List Nat
  | .noLink => chars "NO LINK"
  | .noSync => chars "NO SYNC"
  | .busy => chars "BUSY"
  | .range => chars "RANGE"
  | .live => chars "LIVE"
  | .gone => chars "GONE"
  | .noSession => chars "NO SESSION"

/-- A FAILED lane at lane row `r`, column `c` (R194). -/
def bannerPixel (b : Banner) (r c : Nat) : Grey :=
  if textAt b.text 2 ((280 - 6 * b.text.length) / 2) r c then 3 else if r ≤ 11 then 1 else 0

/-- The waveform area of a used lane at lane row `r`, column `c` (R194). -/
def fetchPixel (f : Option Fetch) (r c : Nat) : Grey :=
  match f with
  | none => 0
  | some e =>
    match e.state, e.banner with
    | .done, _ => if e.decoder then decoderPixel e.boxes r c else channelPixel e.runs r c
    | .failed, some b => bannerPixel b r c
    | _, _ => 0

/-- Lane `n` at lane row `r`, pixel column `c`: separator, label and waveform (R194). -/
def State.lanePixel (s : State) (p : Pass) (n : Fin 16) (r c : Nat) : Grey :=
  let lane := vget p.lanes n
  if r = 12 then 1
  else if !lane.used then 0
  else if c < 40 then if textAt (lane.label.toList.map BitVec.toNat) 2 2 r c then 3 else 0
  else if p.zero.isNone then 0
  else fetchPixel (vget s.view.fetch n) r (c - 40)

/-! ## Zero column and cursors (R196) -/

/-- The zero column, where time zero lies in the window (R196). -/
def Pass.zeroColumn (p : Pass) : Option Nat :=
  match p.zero with
  | none => none
  | some _ =>
    let d := -p.window.offset.toInt
    if 0 ≤ d ∧ d < (Config.viewColumns * p.window.w : Nat) then some (d.toNat / p.window.w) else none

/-- The zero column and the cursors over a lane row of the panel; nothing where none is drawn (R196). -/
def Pass.overlay (p : Pass) (r c : Nat) : Option Grey :=
  if p.window.cursorA.map (· + 40) = some c then some 2
  else if p.window.cursorB.map (· + 40) = some c ∧ (r - 16) % 4 < 2 then some 2
  else if p.zeroColumn.map (· + 40) = some c ∧ r % 2 = 0 then some 1
  else none

/-! ## The frame buffer (R193, R197) -/

/-- The grey of a pixel once the pass is drawn (R193–R196). -/
def State.pixel (s : State) (p : Pass) (r c : Nat) : Grey :=
  if r < 16 then if textAt (s.headerText p) 4 2 r c then 3 else 0
  else if h : (r - 16) / 13 < 16 then
    (p.overlay r c).getD (s.lanePixel p ⟨(r - 16) / 13, h⟩ ((r - 16) % 13) c)
  else if textAt p.window.readout 228 2 r c then 3 else 0

/-- The byte of the frame buffer at an address: four pixels of a row, the leftmost in the two most significant bits
(R197). -/
def State.bufferByte (s : State) (p : Pass) (a : Nat) : Byte :=
  let r := a / 80
  let c := a % 80 * 4
  s.pixel p r c ++ s.pixel p r (c + 1) ++ s.pixel p r (c + 2) ++ s.pixel p r (c + 3)

/-- The cells of a frame buffer with these bytes: a byte of 0 is not listed. -/
def bufferCells (f : Nat → Byte) : List Host.Cell :=
  (List.range Config.frameBufferBytes).filterMap fun a => if f a = 0 then none else some (a, f a)

/-- The frame buffer drawn from a pass (R193). -/
def State.raster (s : State) (p : Pass) : List Host.Cell := bufferCells (s.bufferByte p)

/-! ## Panel pins (R197) -/

/-- The levels at the panel pins. -/
structure PanelPins where
  pcs : Bool
  pwr : Bool
  pd : Byte
  bl : Bool
  deriving DecidableEq, Repr

/-- The panel pins at this tick (R185, R197): in a push, the byte of the slot on PD0–PD7, PWR high for the third to
sixth ticks of the slot, PCS high; BL high for level × 1,024 ticks of each period. -/
def State.panelPins (s : State) : PanelPins :=
  let bl := s.bus.panel && decide (s.view.blPhase < s.view.blLevel.toNat * 1024)
  match s.view.push with
  | none => { pcs := false, pwr := false, pd := 0, bl := bl }
  | some t =>
    let n := (s.time - t).toNat
    if s.bus.panel ∧ n < Config.pushTicks then
      { pcs := true
        pwr := decide (2 ≤ n % 8) && decide (n % 8 ≤ 5)
        pd := s.view.readByte (n / 8)
        bl := bl }
    else { pcs := false, pwr := false, pd := 0, bl := bl }

end Sys2Proof.Machine
end

