-- ==== Sys2Proof/Machine/Receive.lean ====
section
/-! DEFINITION. What every good frame does before and besides the block it goes to (R143, R151, R160), and who gets it:
the shared receiving operation under the meanings of the frame kinds. -/

namespace Sys2Proof.Machine

/-- The score and the link state after a good frame, sent or received (R151, R152). -/
def Bus.goodFrame (b : Bus) : Bus :=
  if b.link.takesPart then { b with score := scoreGood b.score, link := linkOfScore (scoreGood b.score) } else b

/-- The frame in progress is over and the line enters WAIT, its count of recessive bits at 0 (R141). -/
def Bus.endFrame (b : Bus) : Bus :=
  { b with
    line := if b.link = .joining then none else some .wait
    recessiveRun := 0
    rxBits := []
    startStamp := none
    errorFound := false
    flagBits := 0 }

/-- A good frame can be received now: the link is not JOINING (R153), no break is in progress, the station is not
itself sending (R143), and it has found no error in the frame in progress (R145). -/
def State.canReceive (s : State) : Bool :=
  decide (s.bus.link ≠ .joining) && !s.bus.inBreak && s.bus.onWire.isNone && !s.bus.errorFound

/-- The peer table hears a good frame of another station (R160). -/
def State.hear (s : State) (f : RxFrame) : State :=
  if f.src = s.bus.own then s else s.setPeer f.src ((s.peer f.src).heard f.stamp)

/-- What a good frame does whatever its kind and destination: presence (R160), score and link (R151, R152), WAIT
(R141). -/
def State.takeGood (s : State) (f : RxFrame) : State :=
  let s := s.hear f
  { s with bus := s.bus.goodFrame.endFrame }

/-- The frame is dispatched: broadcast, or addressed to this station (R143). -/
def State.isFor (s : State) (f : RxFrame) : Bool := f.bcast || f.dst == s.bus.own

/-- The good receipt of a frame whose block does `act` with it (R143). -/
def State.receive (s : State) (f : RxFrame) (act : State → State) : State :=
  if s.canReceive then
    if s.isFor f then act (s.takeGood f) else s.takeGood f
  else s

end Sys2Proof.Machine
end

