-- ==== Sys2Proof/Machine/View.lean ====
section
/-! DEFINITION. The view engine and the panel port (chapter 11): the view plan, time zero, render passes, the fetch
table and pushes; and the meanings of VIEW_PART, VIEW_GO, RUNS, BOXES, STATUS_NOTE, FETCH_DEADLINE, REASK_TIMER and
PUSH_END. -/

namespace Sys2Proof.Machine

/-! ## Own entries in the ask table (R170) -/

/-- The ask table can take an own entry: fewer than 8 entries, fewer than 4 of them own (R170). -/
def AskService.takesOwn (a : AskService) : Bool :=
  decide (a.table.length < Config.askEntries) && decide ((a.table.filter (·.own)).length < 4)

/-- The own entry of a local lane (R189): `id` its name, `v0` the view start. -/
def ownEntry (id : Nat) (own : Station) (p : Pass) (lane : Lane) (tag : Byte) (v0 : StationTime) : AskEntry where
  id := id
  asker := own
  own := true
  tag := tag
  words := lane.decoder
  seg := BitVec.ofNat 8 p.window.seg.val
  index := lane.index
  start := v0
  w := p.window.w
  k := 0
  columns := Config.viewColumns
  serving := false
  parts := []
  placed := 0
  sent := 0
  readySince := 0

/-! ## Lanes and tags (R189) -/

/-- The tag of lane `n` (R189): generation × 16 + n. -/
def laneTag (g : BitVec 4) (n : Fin 16) : Byte := BitVec.ofNat 8 (g.toNat * 16 + n.val)

/-- The view start V0 of a pass (R187). -/
def Pass.viewStart (p : Pass) (zero : StationTime) : StationTime := zero + p.window.offset

/-- The fetch table with one entry set. -/
def State.setFetch (s : State) (n : Fin 16) (f : Fetch) : State :=
  { s with view := { s.view with fetch := vset s.view.fetch n (some f) } }

/-- A lane FAILED with a banner; its timers are dropped (R189–R191). -/
def Fetch.fail (f : Fetch) (b : Banner) : Fetch :=
  { f with state := .failed, banner := some b, deadline := none, reaskAt := none }

/-- A fetch entry as the walk makes it (R189). -/
def Fetch.start (lane : Lane) (tag : Byte) : Fetch where
  tag := tag
  station := lane.station
  decoder := lane.decoder
  state := .waiting
  reasks := 0
  deadline := none
  reaskAt := none
  ask := none
  nextPart := 0
  nextCol := 0
  runs := []
  boxes := []
  absent := false
  banner := none

/-- A waiting local lane is offered to the ask service (R170, R189). -/
def State.offerOwn (s : State) (n : Fin 16) : State :=
  match s.view.pass, vget s.view.fetch n with
  | some p, some f =>
    match p.zero with
    | none => s
    | some z =>
      if f.state = .waiting ∧ f.station = s.bus.own ∧ s.asks.takesOwn then
        let e := ownEntry s.order s.bus.own p (vget p.lanes n) f.tag (p.viewStart z)
        let s := { s with asks := { s.asks with table := s.asks.table ++ [e] }, order := s.order + 1 }
        s.setFetch n { f with state := .pending }
      else s
  | _, _ => s

/-- The ask service reports a place freed: the waiting local lanes are offered again, in lane order (R189). -/
def State.placeFreed (s : State) : State := (List.finRange 16).foldl State.offerOwn s

/-- The ask of a remote lane (R189): S' by inverse conversion of V0, k' the negated skew. -/
def remoteAsk (p : Pass) (lane : Lane) (tag : Byte) (v0 : StationTime) (peer : Peer) (a : Anchor) : TxFrame :=
  askFrame lane.decoder lane.station tag p.window.seg lane.index (inverse a peer.usedSkew v0) p.window.w
    (-peer.usedSkew) Config.viewColumns

/-- A remote ask is made: it waits for room, or the lane fails with NO LINK where the link is DETACHED or DUPLICATE
(R189). -/
def State.makeAsk (s : State) (n : Fin 16) (f : Fetch) (ask : TxFrame) : State :=
  if s.bus.link.silent then s.setFetch n (f.fail .noLink)
  else
    let s := s.setFetch n { f with state := .waiting, reaskAt := none, ask := some ask }
    { s with
      view := { s.view with asks := s.view.asks ++ [s.hold (.viewAsk f.tag) ask] }
      order := s.order + 1 }

/-- The walk reaches one lane (R189). -/
def State.startLane (p : Pass) (v0 : StationTime) (s : State) (n : Fin 16) : State :=
  let lane := vget p.lanes n
  if !lane.used then s
  else
    let f := Fetch.start lane (laneTag s.view.generation n)
    if lane.station = s.bus.own then (s.setFetch n f).offerOwn n
    else
      let peer := s.peer lane.station
      if !peer.present then s.setFetch n (f.fail .noLink)
      else
        match peer.current with
        | none => s.setFetch n (f.fail .noSync)
        | some a => s.makeAsk n f (remoteAsk p lane f.tag v0 peer a)

/-! ## Passes (R187, R188, R192) -/

/-- Time zero of a render that starts now (R187). -/
def State.timeZero (s : State) : Option StationTime :=
  let w := s.view.window
  match (vget s.store.headers w.seg).trigTime with
  | some t => some t
  | none =>
    if w.zero = s.bus.own then none
    else
      let p := s.peer w.zero
      match p.current, p.lastFire with
      | some a, some f =>
        if p.present ∧ f.seg.toNat = w.seg.val then some (forward a p.usedSkew f.stamp) else none
      | _, _ => none

/-- The pass in hand is abandoned (R192): its own entries leave the ask table, its ask frames not on the wire are
withdrawn and those waiting dropped, the fetch table is emptied. STOPs are kept. -/
def State.abandonPass (s : State) : State :=
  let s := { s with asks := { s.asks with table := s.asks.table.filter fun e => !e.own } }
  let s := s.withdraw fun e => match e.origin with | .viewAsk _ => true | _ => false
  { s with view := { s.view with pass := none, fetch := Vector.replicate 16 none, asks := [] } }

/-- A lane of a pass is over: unused, or DONE or FAILED. -/
def State.laneOver (s : State) (p : Pass) (n : Fin 16) : Bool :=
  !(vget p.lanes n).used ||
    match vget s.view.fetch n with
    | some f => f.state == .done || f.state == .failed
    | none => false

/-- The pass has all it waits for (R192): no time zero, or every used lane DONE or FAILED. -/
def State.passOver (s : State) (p : Pass) : Bool :=
  p.zero.isNone || (List.finRange 16).all (s.laneOver p)

/-- A complete pass is rasterised and its push starts (R192, R197). DESIGN CHOICE (log entry 61): the first slot of the
push begins at this tick. -/
def State.draw (s : State) (p : Pass) : State :=
  { s with
    view := { s.view with pass := some { p with phase := .drawn }, buffer := s.raster p, push := some s.time } }

/-- The pass is completed when its last lane is over (R192): drawn at once, or kept until the push in progress ends. -/
def State.checkPass (s : State) : State :=
  match s.view.pass with
  | none => s
  | some p =>
    if p.phase = .collecting ∧ s.passOver p then
      if s.view.push.isNone then s.draw p
      else { s with view := { s.view with pass := some { p with phase := .complete } } }
    else s

/-- A render starts (R188), at a station with a panel. -/
def State.startRender (s : State) : State :=
  if s.bus.panel then
    let s := s.abandonPass
    let p : Pass := { lanes := s.view.lanes, window := s.view.window, zero := s.timeZero, phase := .collecting }
    let s := { s with view := { s.view with generation := s.view.generation + 1, pass := some p } }
    match p.zero with
    | none => s.checkPass
    | some z => ((List.finRange 16).foldl (State.startLane p (p.viewStart z)) s).checkPass
  else s

/-! ## Results of ask frames (R190) -/

/-- The lane a tag names, when the tag carries the current generation and the lane is PENDING (R191). -/
def State.pendingLane (s : State) (tag : Byte) : Option (Fin 16 × Fetch) :=
  let n : Fin 16 := ⟨tag.toNat % 16, Nat.mod_lt _ (by decide)⟩
  if tag.toNat / 16 = s.view.generation.toNat then
    match vget s.view.fetch n with
    | some f => if f.state = .pending then some (n, f) else none
    | none => none
  else none

/-- An ask frame was placed: its lane is PENDING (R189). -/
def State.askPlaced (s : State) (tag : Byte) : State :=
  let n : Fin 16 := ⟨tag.toNat % 16, Nat.mod_lt _ (by decide)⟩
  if tag.toNat / 16 = s.view.generation.toNat then
    match vget s.view.fetch n with
    | some f => if f.state = .waiting then s.setFetch n { f with state := .pending } else s
    | none => s
  else s

/-- An ask frame was SENT: the deadline is set (R190). -/
def State.askSent (s : State) (tag : Byte) : State :=
  match s.pendingLane tag with
  | some (n, f) => s.setFetch n { f with deadline := some (after s.time Config.deadlineTicks) }
  | none => s

/-- An ask frame was UNHEARD or SPOILED: its lane is FAILED with NO LINK (R190). -/
def State.askLost (s : State) (tag : Byte) : State :=
  match s.pendingLane tag with
  | some (n, f) => (s.setFetch n (f.fail .noLink)).checkPass
  | none => s

/-- A lane FAILED with NO LINK because its unplaced ask cannot be placed (R189). -/
def State.failUnplaced (s : State) (h : Held) : State :=
  match h.origin with
  | .viewAsk tag =>
    let n : Fin 16 := ⟨tag.toNat % 16, Nat.mod_lt _ (by decide)⟩
    match vget s.view.fetch n with
    | some f => if f.tag = tag then s.setFetch n (f.fail .noLink) else s
    | none => s
  | _ => s

/-- The link enters DETACHED or DUPLICATE: every remote ask made or returned and not placed fails (R189). -/
def State.failUnplacedAsks (s : State) : State :=
  let held := s.view.asks
  (held.foldl State.failUnplaced { s with view := { s.view with asks := [] } }).checkPass

/-! ## Parts (R190, R191) -/

/-- A BUSY reply to a PENDING lane (R190): it acts on a remote lane, which has made an ask; a local one is never answered
BUSY, and nothing changes (log entry 27). -/
def Fetch.busy (f : Fetch) (now : StationTime) : Fetch :=
  if f.ask.isNone then f
  else if f.reasks < 2 then
    { f with
      reasks := f.reasks + 1
      deadline := none
      state := .waiting
      reaskAt := some (after now Config.reaskTicks) }
  else f.fail .busy

/-- The data of a part added to a result (R191). DESIGN CHOICE (log entry 65): a BOXES part without a box leaves the expected
first column as it was. -/
def Fetch.add (f : Fetch) (p : Part) : Fetch :=
  let f := { f with nextPart := f.nextPart + 1, absent := f.absent || p.absent }
  match p.data with
  | .runs l => { f with runs := f.runs ++ l, nextCol := f.nextCol + (l.map (·.length)).sum }
  | .boxes l =>
    { f with
      boxes := f.boxes ++ l
      nextCol := match l.getLast? with | some b => b.last + 1 | none => f.nextCol }

/-- A result that is over (R191): DONE, provided the runs of a RUNS result sum to 280. -/
def Fetch.finish (f : Fetch) : Fetch :=
  if f.decoder ∨ f.nextCol = Config.viewColumns then { f with state := .done, deadline := none, reaskAt := none }
  else f.fail .noLink

/-- A matched part acts by its outcome (R191). NO_PANEL and BAD_PART are no outcomes of a reply part and change
nothing (log entry 20). -/
def Fetch.take (f : Fetch) (p : Part) (now : StationTime) : Fetch :=
  match p.outcome with
  | .ok =>
    if p.index = f.nextPart ∧ p.first = f.nextCol then
      if p.last then (f.add p).finish else f.add p
    else f.fail .noLink
  | .busy => f.busy now
  | .range => f.fail .range
  | .live => f.fail .live
  | .gone => f.fail .gone
  | .noSession => f.fail .noSession
  | .noPanel | .badPart => f

/-- The kind of a part: BOXES (else RUNS). -/
def Part.isBoxes (p : Part) : Bool :=
  match p.data with
  | .runs _ => false
  | .boxes _ => true

/-- A part that reaches the view engine from a station (R191): matched and taken, or discarded. -/
def State.takePart (s : State) (src : Station) (p : Part) : State :=
  match s.pendingLane p.tag with
  | some (n, f) =>
    if f.station = src ∧ f.decoder = p.isBoxes then (s.setFetch n (f.take p s.time)).checkPass else s
  | none => s

/-- A RUNS or BOXES frame dispatched to the view engine (R185, R191). -/
def State.takeReply (isBoxes : Bool) (f : RxFrame) (s : State) : State :=
  if s.bus.panel then
    match readPart isBoxes f.payload with
    | some p => s.takePart f.src p
    | none => s
  else s

/-! ## The view plan (R185, R186) -/

/-- A part has an identity of R186 and the length of R203 for it. -/
def viewPartFits (id : Byte) (length : Nat) : Bool :=
  (decide (id.toNat ≤ 3) && length == 32) || (id.toNat == 4 && length == 17) || (id.toNat == 5 && length == 0)

/-- A VIEW_PART at a station with a panel (R186). -/
def State.writeView (id : Byte) (part : List Byte) (s : State) : State :=
  if id.toNat ≤ 3 ∧ part.length = 32 then
    { s with view := { s.view with lanes := setLanes s.view.lanes id.toNat part } }
  else if id.toNat = 4 ∧ part.length = 17 then
    { s with view := { s.view with window := readWindow part } }
  else if id.toNat = 5 ∧ part.length = 0 then s.startRender
  else s

/-- A VIEW_PART frame dispatched to the view engine (R185, R186): written or started, refused with NO_PANEL, or
ignored. A part of another identity or length is discarded with no reply (R186, R199). -/
def State.takeViewPart (f : RxFrame) (s : State) : State :=
  match f.payload with
  | [] => s
  | id :: part =>
    if s.bus.panel then s.writeView id part
    else if f.bcast || !viewPartFits id part.length then s
    else
      { s with
        view := { s.view with note := some (s.hold .viewNote (noPanelFrame f.src id)) }
        order := s.order + 1 }

/-- A STATUS_NOTE dispatched to the view engine (R188): a closure of segment `v` from the source of a used lane starts
a render. -/
def State.takeStatusNote (f : RxFrame) (s : State) : State :=
  match readClosure f.payload with
  | some seg =>
    if seg.toNat = s.view.window.seg.val ∧
        (List.finRange 16).any (fun n => (vget s.view.lanes n).used && (vget s.view.lanes n).station == f.src) then
      s.startRender
    else s
  | none => s

/-! ## Timers and the push -/

/-- A lane's fetch deadline has expired while it is PENDING (R190). -/
def State.deadlineDue (s : State) (n : Fin 16) : Bool :=
  match vget s.view.fetch n with
  | some f => f.state == .pending && timerDue s.time f.deadline
  | none => false

/-- A lane's re-ask timer has expired (R190). -/
def State.reaskDue (s : State) (n : Fin 16) : Bool :=
  match vget s.view.fetch n with
  | some f => f.state == .waiting && timerDue s.time f.reaskAt
  | none => false

/-- The push in progress has sent its last byte (R197). -/
def State.pushOver (s : State) : Bool :=
  match s.view.push with
  | some t => decide (Config.pushTicks ≤ (s.time - t).toNat)
  | none => false

/-- A deadline expires (R190): the lane fails with NO LINK and a STOP for its tag is made. -/
def State.expireDeadline (s : State) (n : Fin 16) : State :=
  match vget s.view.fetch n with
  | some f =>
    let s := s.setFetch n (f.fail .noLink)
    let s := { s with
      view := { s.view with stops := s.view.stops ++ [s.hold .viewStop (stopFrame f.station f.tag)] }
      order := s.order + 1 }
    s.checkPass
  | none => s

/-- A re-ask timer expires (R190): the same ask is made again. -/
def State.reask (s : State) (n : Fin 16) : State :=
  match vget s.view.fetch n with
  | some f =>
    match f.ask with
    | some ask => (s.makeAsk n f ask).checkPass
    | none => s.setFetch n { f with reaskAt := none }
  | none => s

/-- A push ends (R197): the port is IDLE, and a completed pass that waits is drawn and pushed, its first slot at this same
tick (log entry 61). -/
def State.endPush (s : State) : State :=
  let s := { s with view := { s.view with push := none } }
  match s.view.pass with
  | some p => if p.phase = .complete then s.draw p else s
  | none => s

/-! ## Meanings -/

/-- VIEW_PART (R186): a LANES or WINDOW part replaces that part of the view plan; without a panel it is refused
(R185). -/
def execViewPart (f : RxFrame) (s : State) : Host.Outcome State Fault Refusal :=
  .next (s.receive f (State.takeViewPart f))

/-- VIEW_GO (R188): a VIEW_PART GO starts a render; without a panel it is refused (R185). -/
def execViewGo (f : RxFrame) (s : State) : Host.Outcome State Fault Refusal :=
  .next (s.receive f (State.takeViewPart f))

/-- RUNS (R191): a part is matched by its tag and assembled, or discarded. -/
def execRuns (f : RxFrame) (s : State) : Host.Outcome State Fault Refusal :=
  .next (s.receive f (State.takeReply false f))

/-- BOXES (R191): a part is matched by its tag and assembled, or discarded. -/
def execBoxes (f : RxFrame) (s : State) : Host.Outcome State Fault Refusal :=
  .next (s.receive f (State.takeReply true f))

/-- STATUS_NOTE (R159, R188): its sender is present, and a closure of the viewed segment may start a render. -/
def execStatusNote (f : RxFrame) (s : State) : Host.Outcome State Fault Refusal :=
  .next (s.receive f (State.takeStatusNote f))

/-- FETCH_DEADLINE (R190) of one lane. -/
def execFetchDeadline (lane : Fin 16) (s : State) : Host.Outcome State Fault Refusal :=
  .next (if s.deadlineDue lane then s.expireDeadline lane else s)

/-- REASK_TIMER (R190) of one lane. -/
def execReaskTimer (lane : Fin 16) (s : State) : Host.Outcome State Fault Refusal :=
  .next (if s.reaskDue lane then s.reask lane else s)

/-- PUSH_END (R197): the push in progress ends. -/
def execPushEnd (s : State) : Host.Outcome State Fault Refusal :=
  .next (if s.pushOver then s.endPush else s)

end Sys2Proof.Machine
end

