-- ==== Sys2Proof/Machine/Notices.lean ====
section
/-! DEFINITION. What one block tells another in a session: the notes of the session (3.6), the notices the sequencer
takes (R56), the mark unit's entry into OFF and OPEN (R86, R92), and the end of a session (R47–R49). -/

namespace Sys2Proof.Machine

/-! ## Notes of the session (R51–R54) -/

/-- A note is produced (R51): a new session-change or refusal note removes the one that waits. -/
def State.produceNote (s : State) (kind : NoteKind) (f : TxFrame) : State :=
  let x := s.session
  { s with
    session := { x with
      notes := (x.notes.filter fun n => n.kind == .closure || n.kind != kind) ++
        [{ kind := kind, held := s.hold .session f }]
      returned := x.returned.filter fun h => noteKindOf h.frame == .closure || noteKindOf h.frame != kind }
    order := s.order + 1 }

/-- A session-change note with the session as it stands (R52). -/
def State.noteChange (s : State) (time : StationTime) : State :=
  s.produceNote .change (changeNoteFrame s.session.state s.session.k s.session.active time)

/-- A refusal note (R53): the failing part's identity for BAD_PART, none for BUSY. -/
def State.noteRefusal (s : State) (failing : Option Nat) : State :=
  s.produceNote .refusal (refusalNoteFrame failing s.session.state s.session.k)

/-- A segment's header. -/
def State.header (s : State) (k : Fin 8) : SegHeader := vget s.store.headers k

/-- The store with one header replaced. -/
def State.setHeader (s : State) (k : Fin 8) (h : SegHeader) : State :=
  { s with store := { s.store with headers := vset s.store.headers k h } }

/-- A closure note of a segment, with its header as it stands (R54). -/
def State.noteClosure (s : State) (k : Fin 8) : State := s.produceNote .closure (closureNoteFrame k (s.header k))

/-! ## Notices to the sequencer (R56) -/

/-- The stage with a number, once stages are held (R55). -/
def Sequencer.stageOf (q : Sequencer) (n : Fin 4) : Option Stage := q.stages.map fun v => vget v n

/-- The expiry of a stage's timer started at `t`; none when its T is 0 (R66). -/
def Sequencer.timerFrom (q : Sequencer) (n : Fin 4) (t : StationTime) : Option StationTime :=
  match q.stageOf n with
  | some st => if st.timeout = 0 then none else some (after t (st.timeout * 256))
  | none => none

/-- Stage `n` is entered (R58, R66). -/
def Sequencer.enter (q : Sequencer) (n : Fin 4) (how : StageEntry) (t : StationTime) : Sequencer :=
  { q with
    state := .running
    stage := n
    count := 0
    patternFlag := false
    entry := how
    timer := q.timerFrom n t }

/-- The current segment is ready at boundary `b` (R71). -/
def Sequencer.segmentReady (q : Sequencer) (b : StationTime) : Sequencer :=
  match q.state with
  | .waiting => q.enter 0 (.atBoundary b) b
  | .stopped | .running | .fired | .parked => q

/-- A trigger has been taken by the current segment (R72). -/
def Sequencer.park (q : Sequencer) : Sequencer :=
  match q.state with
  | .waiting | .running | .fired => { q with state := .parked, timer := none, noticeWaiting := false }
  | .stopped | .parked => { q with noticeWaiting := false }

/-- The next segment starts (R73). -/
def Sequencer.nextSegment (q : Sequencer) : Sequencer :=
  match q.state with
  | .parked => { q with state := .waiting, stage := 0, count := 0, patternFlag := false, timer := none }
  | .stopped | .waiting | .running | .fired => q

/-- The session becomes DONE or ABORTED (R74). -/
def Sequencer.stop (q : Sequencer) : Sequencer :=
  { q with state := .stopped, timer := none, noticeWaiting := false }

/-- A restart request from the mark unit (R70). -/
def Sequencer.restart (q : Sequencer) (now : StationTime) : Sequencer :=
  match q.state with
  | .fired => q.enter 0 .atTick now
  | .stopped | .waiting | .running | .parked => q

/-- A trigger notice that has been sent to the sequencer and not yet received reaches it (R69, log entry 8). -/
def State.deliverNotice (s : State) : State :=
  if s.sequencer.noticeWaiting then { s with sequencer := s.sequencer.park } else s

/-! ## Notices to the mark unit (R86, R92) -/

/-- The current segment is ready: a FOLLOW station in ALL sense opens (R86). -/
def MarkUnit.segmentReady (m : MarkUnit) : MarkUnit :=
  match m.cfg, m.state with
  | some c, .hold => if c.role = .follow ∧ c.sense = .all then { m with state := .opened } else m
  | _, _ => m

/-- The session ends (R92): OFF, MTX released, what was in progress dropped. A fire still to be taken would find no
current segment (R74). -/
def MarkUnit.off (m : MarkUnit) : MarkUnit :=
  { m with
    state := .off
    handed := none
    fire := none
    pulseEnd := none
    waitEnd := none
    closing := none
    heldOpen := false }

/-! ## The end of a session (R12, R47–R49, R97) -/

/-- A unit stops: its word in hand is dropped (R97). -/
def DecUnit.stop (u : DecUnit) : DecUnit := { u with assembly := .fresh }

/-- Every decoder unit stops (R97). -/
def Decoders.stop (d : Decoders) : Decoders := { d with units := d.units.map DecUnit.stop, running := false }

/-- What the end of a session does to the other blocks: the front end loads the draft plan, the decoders, the
sequencer and the mark unit stop (R47, R48). -/
def State.endSession (s : State) : State :=
  let s := s.load s.session.draft
  { s with decoders := s.decoders.stop, sequencer := s.sequencer.stop, mark := s.mark.off }

end Sys2Proof.Machine
end

