-- ==== Sys2Proof/Machine/Store.lean ====
section
/-! DEFINITION. The capture store (chapter 2) and the steps of a session that follow it (3.4, 3.5): records, staging and
merging, the trigger, the post phase, closing and cutting, writing into the ring; and the meaning of STAGING_WRITE. -/

namespace Sys2Proof.Machine

/-! ## Figures of the layout (R15, R28, R45) -/

/-- Segment count S (R15). -/
def Layout.segments (l : Layout) : Nat := 2 ^ l.segCode.toNat

/-- Post depth P (R28). -/
def Layout.postDepth (l : Layout) : Nat := max 1 (l.capacity * l.p / 8 - 1)

/-- First place of a segment (R15). -/
def Layout.firstPlace (l : Layout) (k : Fin 8) : Nat := k.val * l.capacity

/-- The prefill requirement R (R45). -/
def State.prefillNeed (s : State) (l : Layout) : Nat :=
  match s.session.active with
  | some p => if p.general.prefill then l.capacity - l.postDepth - 1 else 0
  | none => 0

/-- Records of a segment that are still staged. -/
def Store.stagedOf (st : Store) (k : Fin 8) : Nat := (st.fifo.filter fun x => x.seg == k).length

/-- The held count of a segment (R23). -/
def Store.heldCount (st : Store) (k : Fin 8) : Nat := (vget st.headers k).count + st.stagedOf k

/-- The number of periods from one boundary to another. -/
def periodsBetween (p : Nat) (a b : StationTime) : Nat := (b - a).toNat / p

/-! ## Records (R17–R21) -/

/-- A record without marks. -/
def plainRec (delta : Nat) (levels glitch : ChanSet) : Rec where
  delta := BitVec.ofNat 16 delta
  levels := levels
  glitch := glitch
  first := false
  trigger := false
  filler := false
  merged := false

/-- A record staged at the end of the FIFO (R20). -/
def Store.stage (st : Store) (k : Fin 8) (r : Rec) : Store := { st with fifo := st.fifo ++ [{ seg := k, rcd := r }] }

/-- An absorbed record folded into the record that absorbs it (R21). -/
def Rec.absorb (r x : Rec) : Rec :=
  { r with
    levels := x.levels
    glitch := r.glitch ||| (r.levels ^^^ x.levels) ||| x.glitch
    merged := true }

/-- The last element of the FIFO changed. -/
def modLast (f : Staged → Staged) : List Staged → List Staged
  | [] => []
  | [x] => [f x]
  | x :: y :: l => x :: modLast f (y :: l)

/-- A record merged into the newest staged record (R21, R22); the reference keeps its time and takes the levels. -/
def Store.merge (st : Store) (k : Fin 8) (r : Rec) : Store :=
  { st with
    fifo := modLast (fun x => { x with rcd := x.rcd.absorb r }) st.fifo
    headers := vmod st.headers k fun h => { h with merged := bump16 h.merged }
    mergedSeen := true
    reference := st.reference.map fun f => { f with levels := r.levels } }

/-- An ordinary record or a FILLER of boundary `b` offered to the FIFO (R17, R18, R20). -/
def Store.offerRec (st : Store) (k : Fin 8) (b : StationTime) (r : Rec) : Store :=
  if st.fifo.length ≤ 13 then { st.stage k r with reference := some { time := b, levels := r.levels } }
  else st.merge k r

/-- A record produced in POST lowers post remaining by 1 (R29). -/
def SegHeader.produced (h : SegHeader) : SegHeader := { h with postRemaining := h.postRemaining.map (· - 1) }

/-- The record a boundary produces after the reference, if any (R17, R18). -/
def recordAt (p : Nat) (f : Reference) (e : Element) : Option Rec :=
  let n := periodsBetween p f.time e.boundary
  if e.levels ≠ f.levels ∨ e.glitch ≠ 0 then some (plainRec n e.levels e.glitch)
  else if 65535 ≤ n then some { plainRec 65535 f.levels 0 with filler := true }
  else none

/-! ## The trigger (R25–R27) -/

/-- The post deadline (R25). -/
def Layout.deadline (l : Layout) (t : StationTime) : Option StationTime :=
  if l.postTime = 0 then none else some (boundaryFrom (after t (l.postTime * 4096)) (period l.rate))

/-- A header triggered (R25). -/
def SegHeader.trigger (h : SegHeader) (l : Layout) (o : Offer) : SegHeader :=
  { h with
    trigTime := some o.time
    cause := some o.cause
    causeTime := some o.causeTime
    postRemaining := some l.postDepth
    deadline := l.deadline o.time
    state := .post }

/-- The TRIGGER record at boundary `b` (R26); TRIG_OUT pulses for it (R93). -/
def State.triggerRecord (s : State) (l : Layout) (k : Fin 8) (b : StationTime) : State :=
  match s.store.reference with
  | none => s
  | some f =>
    let r : Rec := { plainRec (periodsBetween (period l.rate) f.time b) f.levels 0 with trigger := true }
    { s with
      store := { s.store.stage k r with reference := some { f with time := b } }
      mark := { s.mark with trigOutEnd := some (after s.time Config.pulseTicks) } }

/-- The current segment becomes ready when its start boundary has been taken and it holds enough; the sequencer is told
only where the session is still ARMED, the mark unit always (R45). -/
def State.checkReady (s : State) : State :=
  match s.store.layout, s.store.current with
  | some l, some c =>
    match c.taken with
    | none => s
    | some b =>
      if !s.session.ready ∧ s.prefillNeed l ≤ s.store.heldCount c.seg then
        { s with
          session := { s.session with ready := true }
          sequencer := if s.session.state = .armed then s.sequencer.segmentReady b else s.sequencer
          mark := s.mark.segmentReady }
      else s
  | _, _ => s

/-- The current segment takes a trigger (R25, R46): `late` when the notice of it is to reach the sequencer after an
event of the same tick (R69). -/
def State.trigger (s : State) (l : Layout) (c : Current) (o : Offer) (late : Bool) : State :=
  let s := s.setHeader c.seg ((s.header c.seg).trigger l o)
  let s := match c.taken with | some b => s.triggerRecord l c.seg b | none => s
  let s := { s with session := { s.session with state := .triggered } }
  let s := s.noteChange o.time
  let s := { s with sequencer := { s.sequencer with noticeWaiting := true } }
  let s := if late then s else s.deliverNotice
  s.checkReady

/-- The store takes an offer by the state of the current segment (R25, R27, R80). -/
def State.takeOffer (s : State) (o : Offer) (late : Bool) : State :=
  match s.store.layout, s.store.current with
  | some l, some c =>
    let h := s.header c.seg
    match h.state with
    | .filling => s.trigger l c o late
    | .post =>
      s.setHeader c.seg
        (if o.edge then { h with lateMarks := bump16 h.lateMarks } else { h with lateFires := bump16 h.lateFires })
    | .empty | .complete | .cut => s
  | _, _ => s

/-- This tick is a boundary whose element the store has still to take for the current segment. -/
def State.elementDue (s : State) (c : Current) : Bool :=
  (s.time == s.frontEnd.nextBoundary || s.frontEnd.lastBoundary == some s.time) &&
    match c.taken with
    | none => c.start == s.time
    | some b => b != s.time

/-- An offer reaches the store (R80). In POST, at a tick whose element is still to come and may close the segment, it
waits for that element, since an offer of the tick at which a segment closes goes to the segment just started (log
entry 52). -/
def State.offer (s : State) (o : Offer) (late : Bool) : State :=
  match s.store.current with
  | some c =>
    if (s.header c.seg).state = .post ∧ s.elementDue c then
      { s with store := { s.store with offers := s.store.offers ++ [{ offer := o, late := late }] } }
    else s.takeOffer o late
  | none => s

/-- The offers that waited for the element of this tick are taken, oldest first (R80). -/
def State.takeOffers (s : State) : State :=
  match s.store.offers with
  | [] => s
  | h :: l =>
    (h :: l).foldl (fun s h => s.takeOffer h.offer h.late) { s with store := { s.store with offers := [] } }

/-! ## Starting, closing and cutting a segment (R19, R31, R32, R47) -/

/-- The header of a segment that starts (R19). -/
def SegHeader.start (l : Layout) (k : Fin 8) (b : StationTime) : SegHeader :=
  { SegHeader.empty with state := .filling, base := b, oldest := l.firstPlace k }

/-- Segment `k` starts at boundary `b` (R19, R37). -/
def State.startSegment (s : State) (l : Layout) (k : Fin 8) (b : StationTime) : State :=
  let s := s.setHeader k (SegHeader.start l k b)
  { s with
    store := { s.store with current := some { seg := k, start := b, taken := none } }
    session := { s.session with state := .armed, k := some k, ready := false } }

/-- The start boundary's element is taken (R19, R26): the FIRST record, then a TRIGGER record that was held back. -/
def State.takeStart (s : State) (l : Layout) (c : Current) (e : Element) : State :=
  let r : Rec := { plainRec 0 e.levels 0 with first := true }
  let s := { s with
    store := { s.store.stage c.seg r with
      reference := some { time := e.boundary, levels := e.levels }
      current := some { c with taken := some e.boundary } } }
  let s := if (s.header c.seg).state = .post then s.triggerRecord l c.seg e.boundary else s
  s.checkReady

/-- A closed or cut segment whose last staged record is written takes its final state, and its closure note is produced
(R31, R32, R54), which may start a render (R188). -/
def State.finishSegment (s : State) (k : Fin 8) (render : Bool) : State :=
  let h := s.header k
  match h.ending with
  | none => s
  | some st =>
    if s.store.stagedOf k = 0 then
      let s := s.setHeader k { h with state := st, ending := none }
      let s := s.noteClosure k
      if render ∧ s.view.window.seg = k then s.startRender else s
    else s

/-- A segment that has ended: its close time, and the state it is to take (R31, R32). -/
def State.endSegment (s : State) (c : Current) (close : StationTime) (st : SegState) : State :=
  let s := s.setHeader c.seg { s.header c.seg with close := some close, ending := some st }
  { s with store := { s.store with current := none } }

/-- The next segment's number, when one remains (R47). -/
def Layout.next (l : Layout) (k : Fin 8) : Option (Fin 8) :=
  if h : k.val + 1 < 8 then if k.val + 1 < l.segments then some ⟨k.val + 1, h⟩ else none else none

/-- The session after segment `k` has closed at an element (R47): the next segment starts, or the session is DONE. A
trigger notice still on its way reaches the sequencer before the notice of the next segment (R69, R73). -/
def State.afterClose (s : State) (l : Layout) (k : Fin 8) (e : Element) : State :=
  match l.next k with
  | some k' =>
    let s := s.startSegment l k' e.boundary
    let s := (s.noteChange e.boundary).deliverNotice
    let s := { s with sequencer := s.sequencer.nextSegment }
    s.takeStart l { seg := k', start := e.boundary, taken := none } e
  | none =>
    let s := { s with session := { s.session with state := .done } }
    (s.noteChange e.boundary).endSession

/-- The current segment closes at an element (R31). -/
def State.closeSegment (s : State) (l : Layout) (c : Current) (e : Element) : State :=
  let s := s.endSegment c e.boundary .complete
  (s.afterClose l c.seg e).finishSegment c.seg true

/-- A segment in POST closes at boundary `b` (R29, R30): no post record is left, or `b` is the post deadline. -/
def SegHeader.closesAt (h : SegHeader) (b : StationTime) : Bool :=
  h.state == .post && (h.postRemaining == some 0 || (match h.deadline with | some d => notAfter d b | none => false))

/-- The store takes the element of the start boundary (R19), which may be the post deadline of a segment that was
triggered before it (R26, R30). -/
def State.takeFirst (s : State) (l : Layout) (c : Current) (e : Element) : State :=
  let s := s.takeStart l c e
  if (s.header c.seg).closesAt e.boundary then s.closeSegment l c e else s

/-- The store takes an element after the start boundary (R17, R18, R29, R30). -/
def State.takeElement (s : State) (l : Layout) (c : Current) (f : Reference) (e : Element) : State :=
  let s := { s with store := { s.store with current := some { c with taken := some e.boundary } } }
  let s := match recordAt (period l.rate) f e with
    | none => s
    | some r =>
      let s := { s with store := s.store.offerRec c.seg e.boundary r }
      (s.setHeader c.seg (s.header c.seg).produced).checkReady
  if (s.header c.seg).closesAt e.boundary then s.closeSegment l c e else s

/-- The store takes an element for the current segment, if there is one (R9, R17). -/
def State.takeBoundary (s : State) (e : Element) : State :=
  match s.store.layout, s.store.current with
  | some l, some c =>
    match c.taken, s.store.reference with
    | some _, some f => s.takeElement l c f e
    | _, _ => if e.boundary = c.start then s.takeFirst l c e else s
  | _, _ => s

/-- The store is delivered an element (R9, R17), and then takes the offers of the tick that waited for it (R80). -/
def State.storeElement (s : State) (e : Element) : State := (s.takeBoundary e).takeOffers

/-- The current segment is cut (R32) and the session ABORTED (R48, R49): its change note, the end of the session, and
the segment's final state at once where nothing of it is staged. `render` is false for a bus break (R192). -/
def State.cut (s : State) (render : Bool) : State :=
  match s.session.state, s.store.current with
  | .armed, some c | .triggered, some c =>
    let close := c.taken.getD c.start
    let s := s.endSegment c close .cut
    let s := { s with session := { s.session with state := .aborted } }
    ((s.noteChange close).endSession).finishSegment c.seg render
  | _, _ => s

/-- The running session is aborted (R48, R49); the offers of the tick that waited for its element are taken first. -/
def State.abort (s : State) (render : Bool) : State := s.takeOffers.cut render

/-! ## Writing into the ring (R23, R24) -/

/-- The place after a place of a segment, wrapping within it. -/
def Layout.nextPlace (l : Layout) (k : Fin 8) (place : Nat) : Nat := segPlace l.capacity k place 1

/-- A record written into a ring that is not full (R23). -/
def State.writeFree (s : State) (l : Layout) (x : Staged) : State :=
  let h := s.header x.seg
  let s := { s with store := s.store.write (segPlace l.capacity x.seg h.oldest h.count) x.rcd }
  s.setHeader x.seg { h with count := h.count + 1 }

/-- A record written into a full ring (R24): the oldest goes, the base time moves to the new oldest, and a trim is
signalled. -/
def State.writeOver (s : State) (l : Layout) (x : Staged) : State :=
  let h := s.header x.seg
  let s := { s with store := s.store.write h.oldest x.rcd }
  let oldest := l.nextPlace x.seg h.oldest
  let delta := match s.store.read oldest with | some r => r.delta.toNat | none => 0
  let base := after h.base (delta * period l.rate)
  let s := s.setHeader x.seg { h with oldest := oldest, base := base }
  { s with words := s.words.trim x.seg base }

/-- The oldest staged record is written (R23). -/
def State.writeStaged (s : State) : State :=
  match s.store.layout, s.store.fifo with
  | some l, x :: rest =>
    let s := { s with store := { s.store with fifo := rest, writeWait := 4 } }
    let s := if (s.header x.seg).count < l.capacity then s.writeFree l x else s.writeOver l x
    s.finishSegment x.seg true
  | _, _ => s

/-- A staging write is allowed and there is a record to write (R23). -/
def State.writeDue (s : State) : Bool := !s.store.fifo.isEmpty && s.store.writeWait == 0

/-- STAGING_WRITE (R23): the oldest staged record is written into its segment's ring. -/
def execStagingWrite (s : State) : Host.Outcome State Fault Refusal :=
  .next (if s.writeDue then s.writeStaged else s)

end Sys2Proof.Machine
end

