-- ==== Sys2Proof/Machine/MarkUnit.lean ====
section
/-! DEFINITION. The mark unit (chapter 5): edges on MARK, pulses, holds, windows and MARK_NOTE; and the meanings of
MARK_EDGE, MARK_PULSE_END, EDGE_WAIT_END, WINDOW_CLOSE and TRIG_OUT_END. -/

namespace Sys2Proof.Machine

/-! ## Offers (R80) -/

/-- The offer of an edge with no fire behind it (R80, R82): source MARK, the peer number absent. -/
def markOffer (stamp : StationTime) : Offer :=
  { time := stamp, cause := .mark none, causeTime := stamp, edge := true }

/-- The offer of an edge that a fire of this station led to (R83, R87). -/
def Fire.edgeOffer (f : Fire) (stamp : StationTime) : Offer :=
  { time := stamp, cause := f.cause, causeTime := f.causeTime, edge := true }

/-- The offer of a fire itself (R81, R84). -/
def Fire.offer (f : Fire) : Offer :=
  { time := f.boundary, cause := f.cause, causeTime := f.causeTime, edge := false }

/-! ## ARM (R77) -/

/-- The mark unit after an accepted ARM (R77). -/
def MarkUnit.arm (m : MarkUnit) (g : General) : MarkUnit :=
  { m.off with
    cfg := some { role := g.role, sense := g.sense, hold := g.hold }
    missed := 0
    state :=
      match g.role, g.sense with
      | .solo, _ => .off
      | .lead, .any | .follow, .any => .watch
      | .lead, .all | .follow, .all => .hold }

/-! ## Fires (R81, R83, R84, R88, R94) -/

/-- A pulse starts (R83). -/
def MarkUnit.startPulse (m : MarkUnit) (f : Fire) (now : StationTime) : MarkUnit :=
  { m with
    state := .pulse
    fire := some f
    pulseEnd := some (after now Config.pulseTicks)
    waitEnd := some (after now Config.edgeWaitTicks) }

/-- A window opens (R88); a pattern that holds at the fire boundary holds it open (log entry 53). -/
def MarkUnit.openWindow (m : MarkUnit) (c : MarkCfg) (f : Fire) (now : StationTime) : MarkUnit :=
  { m with state := .opened, fire := some f, closing := some (after now (c.hold * 16)), heldOpen := f.lasting }

/-- A fire of a LEAD that can drive, its segment FILLING (R83, R88). -/
def MarkUnit.leadFire (m : MarkUnit) (c : MarkCfg) (f : Fire) (now : StationTime) : MarkUnit :=
  match c.sense, m.state with
  | .any, .watch => m.startPulse f now
  | .all, .hold => m.openWindow c f now
  | _, _ => m

/-- The state of the store's current segment. -/
def State.currentState (s : State) : Option SegState := s.store.current.map fun c => (s.header c.seg).state

/-- The sequencer hands a fire to the mark unit (R67): late in POST, an offer in SOLO and while the link is DETACHED
or DUPLICATE, otherwise a pulse or a window. -/
def State.takeFire (s : State) (f : Fire) : State :=
  match s.mark.cfg, s.currentState with
  | some c, some .filling =>
    if c.role = .solo ∨ (c.role = .lead ∧ s.bus.link.silent) then s.offer f.offer false
    else if c.role = .lead then { s with mark := s.mark.leadFire c f s.time }
    else s
  | some _, _ => s.offer f.offer false
  | none, _ => s

/-- The mark unit takes the fire that has been handed to it, if there is one (R67). It does so at the place that the order
of a boundary gives it, before the next edge it takes, or when nothing else is due at the tick; a session that ends first
leaves it no current segment (R74, log entry 26). -/
def State.takeHanded (s : State) : State :=
  match s.mark.handed with
  | some f => State.takeFire { s with mark := { s.mark with handed := none } } f
  | none => s

/-! ## Edges (R79, R82, R83, R87) -/

/-- The edge list with one more entry, the oldest dropped beyond four (R79). -/
def addEdge (l : List MarkEdge) (e : MarkEdge) : List MarkEdge :=
  if l.length < 4 then l ++ [e] else l.drop 1 ++ [e]

/-- A MARK_NOTE is queued for an offer from the station's own edge (R90). -/
def State.queueMarkNote (s : State) (f : Fire) (stamp : StationTime) : State :=
  s.placeUrgent .markUnit (markNoteFrame f.seg stamp f.cause)

/-- The own edge of a pulse is taken (R83). -/
def MarkUnit.ownEdge (m : MarkUnit) : MarkUnit :=
  { m with fire := none, waitEnd := none, state := if m.pulseEnd.isNone then .watch else .pulse }

/-- The unit holds MARK again after an edge in OPEN or a missed window (R87, R89). -/
def MarkUnit.holdAgain (m : MarkUnit) : MarkUnit :=
  { m with state := .hold, fire := none, closing := none, heldOpen := false }

/-- An edge is taken by the mark unit in its present state (R79–R88). -/
def State.takeEdge (s : State) (e : MarkEdge) (late : Bool) : State :=
  match s.mark.state, e.rising with
  | .watch, false => s.offer (markOffer e.stamp) late
  | .pulse, false =>
    match s.mark.fire, s.mark.waitEnd with
    | some f, some _ =>
      let s := s.offer (f.edgeOffer e.stamp) late
      let s := { s with mark := s.mark.ownEdge }
      s.queueMarkNote f e.stamp
    | _, _ => s
  | .opened, true =>
    match s.mark.fire with
    | some f =>
      let s := s.offer (f.edgeOffer e.stamp) late
      let s := { s with mark := s.mark.holdAgain }
      s.queueMarkNote f e.stamp
    | none =>
      let s := s.offer (markOffer e.stamp) late
      { s with mark := s.mark.holdAgain }
  | _, _ => s

/-- An edge can be registered now: the level differs from the one registered before, and no edge has been registered
at this tick (R79). -/
def MarkUnit.edgePossible (m : MarkUnit) (rising : Bool) : Bool := rising != m.mrx && !m.edgeThisTick

/-! ## The window's pattern (R88) -/

/-- The sequencer reports the truth of the pattern that fired at boundary `b` (R70, R88). A fire that the unit has still
to take carries the report with it. -/
def MarkUnit.patternTruth (m : MarkUnit) (b : StationTime) (truth : Bool) : MarkUnit :=
  match m.handed with
  | some f => { m with handed := some { f with lasting := truth } }
  | none =>
    match m.cfg, m.state, m.closing with
    | some c, .opened, some t =>
      if truth then { m with heldOpen := true }
      else if m.heldOpen then { m with heldOpen := false, closing := some (later (after b (c.hold * 16)) t) }
      else m
    | _, _, _ => m

/-! ## Timers -/

/-- The 16 ticks of the pulse have passed (R83). -/
def State.pulseOver (s : State) : Bool := s.mark.state == .pulse && timerDue s.time s.mark.pulseEnd

/-- The edge wait ends with no falling edge taken (R85). -/
def State.edgeWaitOver (s : State) : Bool := s.mark.state == .pulse && timerDue s.time s.mark.waitEnd

/-- The window has reached its closing time (R89). -/
def State.windowOver (s : State) : Bool :=
  s.mark.state == .opened && !s.mark.heldOpen && timerDue s.time s.mark.closing

/-- The TRIG_OUT pulse has lasted 16 ticks (R93). -/
def State.trigOutOver (s : State) : Bool := timerDue s.time s.mark.trigOutEnd

/-- The pulse ends (R83): MTX is released, and the unit is in WATCH again once the own edge has been taken. -/
def MarkUnit.endPulse (m : MarkUnit) : MarkUnit :=
  { m with pulseEnd := none, state := if m.waitEnd.isNone then .watch else .pulse }

/-- A dead pulse or a missed window is counted and flagged (R85, R89). -/
def MarkUnit.countMissed (m : MarkUnit) : MarkUnit := { m with missed := bump16 m.missed, missedSeen := true }

/-- The pulse is dead (R85). -/
def MarkUnit.deadPulse (m : MarkUnit) : MarkUnit :=
  { m.countMissed with state := .watch, fire := none, pulseEnd := none, waitEnd := none }

/-- A restart request is sent to the sequencer (R70). -/
def State.requestRestart (s : State) : State := { s with sequencer := s.sequencer.restart s.time }

/-! ## Meanings -/

/-- MARK_EDGE (R79): the edge is stamped into the edge list and taken by the mark unit in its present state, after a fire
that was handed to it before. -/
def execMarkEdge (rising noticeLate : Bool) (s : State) : Host.Outcome State Fault Refusal :=
  .next
    (if s.mark.edgePossible rising then
      let s := s.takeHanded
      let e : MarkEdge := { stamp := s.time, rising := rising }
      let s := { s with mark := { s.mark with edges := addEdge s.mark.edges e, mrx := rising, edgeThisTick := true } }
      s.takeEdge e noticeLate
    else s)

/-- MARK_PULSE_END (R83): the 16-tick pulse ends and MTX is released. -/
def execMarkPulseEnd (s : State) : Host.Outcome State Fault Refusal :=
  .next (if s.pulseOver then { s with mark := s.mark.endPulse } else s)

/-- EDGE_WAIT_END (R85): no falling edge has been taken, so the pulse is dead and a restart is requested. -/
def execEdgeWaitEnd (s : State) : Host.Outcome State Fault Refusal :=
  .next (if s.edgeWaitOver then State.requestRestart { s with mark := s.mark.deadPulse } else s)

/-- WINDOW_CLOSE (R89): the window is missed, MARK is held again and a restart is requested. -/
def execWindowClose (s : State) : Host.Outcome State Fault Refusal :=
  .next (if s.windowOver then State.requestRestart { s with mark := s.mark.countMissed.holdAgain } else s)

/-- TRIG_OUT_END (R93): the pulse ends and the pin returns low. -/
def execTrigOutEnd (s : State) : Host.Outcome State Fault Refusal :=
  .next (if s.trigOutOver then { s with mark := { s.mark with trigOutEnd := none } } else s)

end Sys2Proof.Machine
end

