-- ==== Sys2Proof/Machine/Sequencer.lean ====
section
/-! DEFINITION. The trigger sequencer (chapter 4): conditions, counting, stage changes, fires and cues; and the meaning
of STAGE_TIMER_EXPIRY. -/

namespace Sys2Proof.Machine

/-! ## Conditions (R59–R61) -/

/-- Truth of a PATTERN at an element (R59). -/
def patternHolds (mask value : ChanSet) (e : Element) : Bool := (e.levels ^^^ value) &&& mask == 0

/-- A stage with this condition fires on a PATTERN that holds at the fire boundary (R70, R88): it does where the pattern's
own occurrence ends the stage, and at an expiry by the level set of the last boundary delivered (log entry 53). -/
def Cond.lasting (c : Cond) (expired : Bool) (levels : ChanSet) : Bool :=
  match c with
  | .pattern mask value => !expired || (levels ^^^ value) &&& mask == 0
  | .edge _ _ | .glitch _ | .pulse _ _ _ _ | .cue _ | .unassigned _ => false

/-- Channels with an edge of a direction between two level sets (R60). -/
def edgesOf (dir : EdgeDir) (old new : ChanSet) : ChanSet :=
  match dir with
  | .rising => ~~~old &&& new
  | .falling => old &&& ~~~new
  | .either => old ^^^ new

/-- A pulse of the polarity ends at the element with a width in range (R61); the width is a signed difference of two
station times (1.8). -/
def Sequencer.pulseEnds (q : Sequencer) (ch : Chan) (high : Bool) (min max : Nat) (e : Element) : Bool :=
  chanBit q.levels ch == high && chanBit e.levels ch != high &&
    match vget q.lastChange ch with
    | none => false
    | some t =>
      let width := tdiff e.boundary t
      decide ((min : Int) ≤ width) && (max == 0 || decide (width ≤ (max : Int)))

/-- One occurrence of a condition belongs to the element's boundary (R59–R61). A CUE takes its occurrences from cues,
and an unassigned kind has none (R55). -/
def Sequencer.occurs (q : Sequencer) (c : Cond) (e : Element) : Bool :=
  match c with
  | .pattern mask value => patternHolds mask value e && !q.patternFlag
  | .edge set dir => set &&& edgesOf dir q.levels e.levels != 0
  | .glitch set => set &&& e.glitch != 0
  | .pulse ch high min max => q.pulseEnds ch high min max e
  | .cue _ | .unassigned _ => false

/-- The pattern flag after an element the stage has evaluated (R59). -/
def Sequencer.noteTruth (q : Sequencer) (c : Cond) (e : Element) : Sequencer :=
  match c with
  | .pattern mask value => { q with patternFlag := patternHolds mask value e }
  | .edge _ _ | .glitch _ | .pulse _ _ _ _ | .cue _ | .unassigned _ => q

/-- The current stage counts what belongs to boundary `b` (R58). -/
def Sequencer.counts (q : Sequencer) (b : StationTime) : Bool :=
  match q.entry with
  | .atBoundary t => earlier t b
  | .atTick => true

/-- The sequencer's copy and its last-change times after an element (R57). -/
def Sequencer.keep (q : Sequencer) (e : Element) : Sequencer :=
  { q with
    levels := e.levels
    lastChange := Vector.ofFn fun (c : Chan) =>
      if chanBit q.levels c != chanBit e.levels c then some e.boundary else vget q.lastChange c }

/-! ## Firing (R67, R68) -/

/-- The sequencer fires from its current stage (R67): it hands the fire to the mark unit, which takes it
by `State.takeHanded`, and enters FIRED. -/
def State.fire (s : State) (st : Stage) (expired : Bool) (entry : Option (Fin 24)) (causeTime b : StationTime) : State :=
  let q := s.sequencer
  let f : Fire := {
    seg := s.session.k.getD 0
    cause := .sequencer q.stage expired st.cond.code entry
    causeTime := causeTime
    boundary := b
    lasting := st.cond.lasting expired q.levels }
  { s with
    sequencer := { q with state := .fired, timer := none }
    mark := { s.mark with handed := some f } }

/-- The stage after the current one. -/
def Sequencer.nextStage (q : Sequencer) : Fin 4 := ⟨(q.stage.val + 1) % 4, Nat.mod_lt _ (by decide)⟩

/-- The current stage counts one occurrence that belongs to boundary `b` (R64). -/
def State.count (s : State) (st : Stage) (entry : Option (Fin 24)) (causeTime b : StationTime) : State :=
  let q := s.sequencer
  let s := { s with sequencer := { q with count := q.count + 1 } }
  if q.count + 1 < st.n then s
  else if st.satisfiedFires then s.fire st false entry causeTime b
  else { s with sequencer := s.sequencer.enter q.nextStage (.atBoundary b) b }

/-! ## Elements and cues (R57, R62, R63, R70) -/

/-- The current stage evaluates an element (R58–R64). -/
def State.evaluate (s : State) (st : Stage) (e : Element) : State :=
  let occurs := s.sequencer.occurs st.cond e
  let s := { s with sequencer := s.sequencer.noteTruth st.cond e }
  if occurs then s.count st none e.boundary e.boundary else s

/-- A FIRED sequencer reports the truth of its stage's pattern to the mark unit (R70). -/
def State.reportPattern (s : State) (st : Stage) (e : Element) : State :=
  match st.cond with
  | .pattern mask value => { s with mark := s.mark.patternTruth e.boundary (patternHolds mask value e) }
  | .edge _ _ | .glitch _ | .pulse _ _ _ _ | .cue _ | .unassigned _ => s

/-- The sequencer takes an element (R57). -/
def State.seqElement (s : State) (e : Element) : State :=
  let q := s.sequencer
  let s :=
    match q.state, q.stageOf q.stage with
    | .running, some st => if q.counts e.boundary then s.evaluate st e else s
    | .fired, some st => s.reportPattern st e
    | _, _ => s
  { s with sequencer := s.sequencer.keep e }

/-- A CUE condition's entry code names the entry of a cue (R63): 31 is ANY, 24 to 30 name none. -/
def cueMatches (code : BitVec 5) (entry : Fin 24) : Bool := code.toNat == 31 || code.toNat == entry.val

/-- The sequencer takes a cue (R62, R63): evaluated in RUNNING under a CUE condition, else dropped. -/
def State.seqCue (s : State) (entry : Fin 24) (endTime b : StationTime) : State :=
  let q := s.sequencer
  match q.state, q.stageOf q.stage with
  | .running, some st =>
    match st.cond with
    | .cue code => if cueMatches code entry && q.counts b then s.count st (some entry) endTime b else s
    | .pattern _ _ | .edge _ _ | .glitch _ | .pulse _ _ _ _ | .unassigned _ => s
  | _, _ => s

/-! ## ARM (R55, R71) -/

/-- The sequencer after an accepted ARM (R55, R71). -/
def Sequencer.arm (q : Sequencer) (p : Plan) : Sequencer :=
  { q with
    stages := some p.stages
    stageCount := p.general.stageCount
    state := if p.general.stageCount = 0 then .stopped else .waiting
    stage := 0
    count := 0
    patternFlag := false
    timer := none
    entry := .atTick
    noticeWaiting := false }

/-! ## Meaning -/

/-- The stage timer has expired in RUNNING (R66). -/
def State.stageTimerDue (s : State) : Bool := s.sequencer.state == .running && timerDue s.time s.sequencer.timer

/-- The on-timeout action of the current stage (R66). -/
def State.expireStage (s : State) : State :=
  match s.sequencer.stageOf s.sequencer.stage with
  | some st =>
    if st.timeoutFires then s.fire st true none s.time (s.frontEnd.lastBoundary.getD s.time)
    else { s with sequencer := s.sequencer.enter 0 .atTick s.time }
  | none => s

/-- STAGE_TIMER_EXPIRY (R66): RESTART or FIRE. A trigger notice that was to come later reaches the sequencer after
it (R69). -/
def execStageTimerExpiry (s : State) : Host.Outcome State Fault Refusal :=
  .next (if s.stageTimerDue then s.expireStage.deliverNotice else s)

end Sys2Proof.Machine
end

