-- ==== Sys2Proof/Machine/Decoders.lean ====
section
/-! DEFINITION. The four decoder units (chapter 6): how a UART, SPI, I2C or BMC unit takes one element and which words
it completes. -/

namespace Sys2Proof.Machine

/-! ## Words as a unit completes them (R98) -/

/-- A completed word before its decoder, segment and shared flags are filled in. `covers` is the start of the time its
GLITCHED flag looks at, `half` its shortest measured clock half-period (R100, R101). -/
structure RawWord where
  kind : WKind
  value : BitVec 16
  value2 : Option (BitVec 16)
  start : StationTime
  stop : StationTime
  parity : Bool
  framing : Bool
  short : Bool
  acked : Bool
  covers : StationTime
  half : Option Int
  deriving DecidableEq, Repr

/-- A word of a kind with a value and its times, and no flag. -/
def rawWord (kind : WKind) (value : BitVec 16) (start stop : StationTime) : RawWord where
  kind := kind
  value := value
  value2 := none
  start := start
  stop := stop
  parity := false
  framing := false
  short := false
  acked := false
  covers := start
  half := none

/-- A value with bit `i` set to `b`. -/
def setBit (v : BitVec 16) (i : Nat) (b : Bool) : BitVec 16 := if b then v ||| BitVec.ofNat 16 (2 ^ i) else v

/-! ## Clock half-periods (R101) -/

/-- The measure of a word whose first bit is taken at `b`. -/
def HalfPeriod.start (b : StationTime) : HalfPeriod := { last := some b, shortest := none }

/-- A further change of the clock at `b`. -/
def HalfPeriod.change (h : HalfPeriod) (b : StationTime) : HalfPeriod :=
  match h.last with
  | none => HalfPeriod.start b
  | some t =>
    let n := tdiff b t
    { last := some b, shortest := some (match h.shortest with | some m => min m n | none => n) }

/-! ## UART (R102–R105) -/

/-- Sample time of bit `i` of a frame whose start edge is at `s` (R103). -/
def UartCfg.sampleTime (c : UartCfg) (s : StationTime) (i : Nat) : StationTime := after s ((2 * i + 1) * c.bit16 / 32)

/-- Frame length F (6.3). -/
def UartCfg.frameLength (c : UartCfg) : Nat :=
  1 + c.dataBits + (if c.parity = .none then 0 else 1) + if c.twoStops then 2 else 1

/-- Index of the first stop bit. -/
def UartCfg.firstStop (c : UartCfg) : Nat := 1 + c.dataBits + if c.parity = .none then 0 else 1

/-- Due time of a gap timer (R105). -/
def UartCfg.gapDue (c : UartCfg) (t : StationTime) : StationTime := after t (c.gap * c.bit16 / 16)

/-- A gap timer started at `t`; none where G is 0 (R105). -/
def UartCfg.gapFrom (c : UartCfg) (t : StationTime) : Option StationTime := if c.gap = 0 then none else some t

/-- The parity is not correct with this many 1s among the data bits and the parity bit (R103). -/
def Parity.wrong (p : Parity) (ones : Nat) : Bool :=
  match p with
  | .none => false
  | .even => ones % 2 == 1
  | .odd => ones % 2 == 0

/-- The word and the next state at the last stop bit, `idle` its level (R104). -/
def UartFrame.finish (f : UartFrame) (c : UartCfg) (idle : Bool) : RawWord × UartSt :=
  let stop := c.sampleTime f.start (c.frameLength - 1)
  if !f.sawIdle then (rawWord .brk 0 f.start stop, { phase := .waitIdle true, gapStart := none })
  else
    let w := { rawWord .data f.value f.start stop with parity := f.parityBad, framing := !idle || f.firstStopBad }
    if idle then (w, { phase := .hunt, gapStart := c.gapFrom stop })
    else (w, { phase := .waitIdle true, gapStart := none })

/-- Bit `f.next` of a frame takes its level, before the last stop bit (R103). -/
def UartFrame.take (f : UartFrame) (c : UartCfg) (idle : Bool) : UartFrame :=
  let i := f.next
  let f := { f with next := i + 1 }
  if i = 0 then f
  else if i ≤ c.dataBits then
    { f with value := setBit f.value (i - 1) idle, ones := f.ones + if idle then 1 else 0 }
  else if i < c.firstStop then
    { f with parityBad := c.parity.wrong (f.ones + if idle then 1 else 0) }
  else { f with firstStopBad := !idle }

/-- The bits whose sample time lies at or before `b` take the level `idle` (R103, R104); `fuel` bounds their number. -/
def UartFrame.run (c : UartCfg) (b : StationTime) (idle : Bool) : (fuel : Nat) → UartFrame → List RawWord × UartSt
  | 0, f => ([], { phase := .frame f, gapStart := none })
  | n + 1, f =>
    if notAfter (c.sampleTime f.start f.next) b then
      if f.next = 0 ∧ idle then ([], { phase := .hunt, gapStart := none })
      else if f.next + 1 = c.frameLength then
        let (w, st) := f.finish c idle
        ([w], st)
      else UartFrame.run c b idle n (f.take c idle)
    else ([], { phase := .frame f, gapStart := none })

/-- The gap timer tested at boundary `b` (R105): the GAP word it produces, and the state without it. -/
def UartSt.testGap (u : UartSt) (c : UartCfg) (b : StationTime) : List RawWord × UartSt :=
  match u.phase, u.gapStart with
  | .hunt, some t =>
    if notAfter (c.gapDue t) b then ([rawWord .gap 0 t (c.gapDue t)], { u with gapStart := none }) else ([], u)
  | _, _ => ([], u)

/-- A frame that starts at `b` (R102). -/
def UartFrame.begin (b : StationTime) : UartFrame where
  start := b
  next := 0
  value := 0
  ones := 0
  parityBad := false
  firstStopBad := false
  sawIdle := false

/-- A UART unit takes an element at `b` with the line idle or not (R102–R105). The gap timer is tested first, and again
where the element itself has ended a frame. -/
def UartSt.step (u : UartSt) (c : UartCfg) (b : StationTime) (idle : Bool) : List RawWord × UartSt :=
  match u.phase with
  | .waitIdle startsGap =>
    if idle then ([], { phase := .hunt, gapStart := if startsGap then c.gapFrom b else none }) else ([], u)
  | .hunt =>
    let (ws, u) := u.testGap c b
    if idle then (ws, u) else (ws, { phase := .frame (UartFrame.begin b), gapStart := none })
  | .frame f =>
    let (ws, u) := UartFrame.run c b idle 16 { f with sawIdle := f.sawIdle || idle }
    let (ws', u) := u.testGap c b
    (ws ++ ws', u)

/-- The state of a UART unit at the arm boundary (R102). -/
def UartSt.atArm (idle : Bool) : UartSt :=
  { phase := if idle then .hunt else .waitIdle false, gapStart := none }

/-! ## SPI (R106–R108) -/

/-- The state of an SPI unit at the arm boundary `b` (R107, R108). -/
def SpiSt.atArm (c : SpiCfg) (levels : ChanSet) (b : StationTime) : SpiSt where
  sel :=
    match c.select with
    | none => .none
    | some ch => if chanBit levels ch == c.activeHigh then .waitDeselect else .deselected
  count := 0
  value := 0
  value2 := 0
  first := b
  lastClock := b
  half := { last := none, shortest := none }

/-- The DATA word of the bits in hand, ended at `b` (R106–R108). -/
def SpiSt.word (x : SpiSt) (c : SpiCfg) (b : StationTime) (short : Bool) : RawWord :=
  { rawWord .data x.value x.first b with
    value2 := if c.dataIn.isSome then some x.value2 else none
    short := short
    half := x.half.shortest }

/-- The unit with no bit in hand. -/
def SpiSt.clear (x : SpiSt) : SpiSt := { x with count := 0, value := 0, value2 := 0 }

/-- The level of an optional channel. -/
def optBit (levels : ChanSet) : Option Chan → Bool
  | none => false
  | some ch => chanBit levels ch

/-- A sampling edge at `b` takes one bit from each data channel (R106). -/
def SpiSt.takeBit (x : SpiSt) (c : SpiCfg) (levels : ChanSet) (b : StationTime) : List RawWord × SpiSt :=
  let pos := if c.lsbFirst then x.count else c.length - 1 - x.count
  let x := if x.count = 0 then { x with first := b, half := HalfPeriod.start b } else x
  let x := { x with
    count := x.count + 1
    value := setBit x.value pos (optBit levels c.dataOut)
    value2 := setBit x.value2 pos (optBit levels c.dataIn) }
  if x.count = c.length then ([x.word c b false], x.clear) else ([], x)

/-- Whether bits can be taken: selected, or without a select channel (R107). -/
def SelState.takes : SelState → Bool
  | .selected | .none => true
  | .deselected | .waitDeselect => false

/-- Select seen active at an element (R107). -/
def SelState.seenActive : SelState → SelState
  | .deselected | .selected => .selected
  | .waitDeselect => .waitDeselect
  | .none => .none

/-- An SPI unit takes an element (R106–R108): `old` is its copy of the last level set. DEDUCED (log entry 63): the clock
changes that measure a word are those of R101's definition, in a one-bit SHORT word too. -/
def SpiSt.step (x : SpiSt) (c : SpiCfg) (old levels : ChanSet) (b : StationTime) : List RawWord × SpiSt :=
  let was := chanBit old c.clock
  let now := chanBit levels c.clock
  let changed := was != now
  let samples := changed && now != c.falling
  let x := if changed && decide (0 < x.count) then { x with half := x.half.change b } else x
  let (ws, x) :=
    match c.select with
    | some ch =>
      if chanBit levels ch == c.activeHigh then
        let x := { x with sel := x.sel.seenActive }
        if samples && x.sel.takes then x.takeBit c levels b else ([], x)
      else
        let short := if x.sel.takes && decide (0 < x.count) then [x.word c b true] else []
        (short, { x.clear with sel := .deselected })
    | none =>
      if samples then x.takeBit c levels b
      else if !changed && decide (0 < c.resync) && decide (0 < x.count) && decide ((c.resync : Int) < tdiff b x.lastClock) then
        ([x.word c b true], x.clear)
      else ([], x)
  (ws, if changed then { x with lastClock := b } else x)

/-! ## I2C (R109–R111) -/

/-- The state of an I2C unit at the arm boundary (R109). -/
def I2cSt.atArm (b : StationTime) : I2cSt where
  inside := false
  addressNext := false
  count := 0
  value := 0
  first := b
  half := { last := none, shortest := none }

/-- The ERROR word of a byte that a START or STOP at `b` cuts (R111). -/
def I2cSt.cut (x : I2cSt) (b : StationTime) : List RawWord :=
  if x.inside && decide (0 < x.count) then
    [{ rawWord .error (x.value.setWidth 16) x.first b with short := true, half := x.half.shortest }]
  else []

/-- The two words of a byte whose acknowledge bit is taken at `b` (R110); `nack` is its level. -/
def I2cSt.byteWords (x : I2cSt) (b : StationTime) (nack : Bool) : List RawWord :=
  let kind := if x.addressNext then WKind.address else .data
  let w := { rawWord kind (x.value.setWidth 16) x.first b with acked := !nack, half := x.half.shortest }
  [w, { rawWord (if nack then .nack else .ack) w.value b b with covers := x.first, half := w.half }]

/-- A rise of SCL inside a transfer takes one bit (R109, R110). -/
def I2cSt.takeBit (x : I2cSt) (sda : Bool) (b : StationTime) : List RawWord × I2cSt :=
  if x.count = 8 then (x.byteWords b sda, { x with count := 0, value := 0, addressNext := false })
  else
    let x := if x.count = 0 then { x with first := b, value := 0, half := HalfPeriod.start b } else x
    ([], { x with
      count := x.count + 1
      value := if sda then x.value ||| BitVec.ofNat 8 (2 ^ (7 - x.count)) else x.value })

/-- An I2C unit takes an element (R109–R111): `old` is its copy of the last level set. -/
def I2cSt.step (x : I2cSt) (scl sda : Chan) (old levels : ChanSet) (b : StationTime) : List RawWord × I2cSt :=
  let clkWas := chanBit old scl
  let clk := chanBit levels scl
  let datWas := chanBit old sda
  let dat := chanBit levels sda
  let x := if clkWas != clk && decide (0 < x.count) then { x with half := x.half.change b } else x
  if clkWas && clk && datWas && !dat then
    (x.cut b ++ [rawWord .start (if x.inside then 1 else 0) b b],
      { x with inside := true, addressNext := true, count := 0, value := 0 })
  else if clkWas && clk && !datWas && dat then
    (x.cut b ++ (if x.inside then [rawWord .stop 0 b b] else []), { x with inside := false, count := 0, value := 0 })
  else if x.inside && !clkWas && clk then x.takeBit dat b
  else ([], x)

/-! ## BMC (R112–R115) -/

/-- Class of an interval (R112). -/
inductive Interval where
  | half
  | full
  | error
  deriving DecidableEq, Repr

/-- The class of an interval of `n` ticks (R112). -/
def BmcCfg.classify (c : BmcCfg) (n : Int) : Interval :=
  if c.halfMin ≤ n ∧ n ≤ c.halfMax then .half
  else if c.fullMin ≤ n ∧ n ≤ c.fullMax then .full
  else .error

/-- HUNT with an alternation count of 0 (R114). -/
def BmcPhase.fresh : BmcPhase := .hunt 0 false 0

/-- The state of a BMC unit at the arm boundary (R112–R114). -/
def BmcSt.atArm : BmcSt where
  phase := BmcPhase.fresh
  lastTransition := none
  idleFound := false
  halfPending := none

/-- A bit of value `v` that starts at `s` and ends at `b` (R114, R115). -/
def BmcSt.takeBit (x : BmcSt) (v : Bool) (s b : StationTime) : List RawWord × BmcSt :=
  match x.phase with
  | .hunt n last start =>
    if n = 0 then ([], { x with phase := .hunt 1 v s })
    else if v != last then ([], { x with phase := .hunt (bump16 n) v start })
    else if 16 ≤ n then
      ([rawWord .sync (BitVec.ofNat 16 n) start b], { x with phase := .frame { count := 0, value := 0, first := b } })
    else ([], { x with phase := .hunt 1 v s })
  | .frame y =>
    let y := if y.count = 0 then { y with first := s, value := 0 } else y
    let y := { y with count := y.count + 1, value := if v then y.value ||| BitVec.ofNat 8 (2 ^ y.count) else y.value }
    if y.count = 8 then
      ([rawWord .data (y.value.setWidth 16) y.first b], { x with phase := .frame { y with count := 0, value := 0 } })
    else ([], { x with phase := .frame y })

/-- The ERROR word of a message abandoned at `b`, the failed bit having begun at `s` and a pending half being in hand or
not (R115). -/
def BmcByte.error (y : BmcByte) (pending : Bool) (s b : StationTime) : RawWord :=
  { rawWord .error (if y.count = 0 then 0 else y.value.setWidth 16) (if y.count = 0 then s else y.first) b with
    short := pending || decide (0 < y.count) }

/-- A bit error found at `b`; the interval in error began at `t` (R113–R115). -/
def BmcSt.bitError (x : BmcSt) (t b : StationTime) : List RawWord × BmcSt :=
  let ws :=
    match x.phase with
    | .hunt _ _ _ => []
    | .frame y => [y.error x.halfPending.isSome (x.halfPending.getD t) b]
  (ws, { x with phase := BmcPhase.fresh, halfPending := none })

/-- Idle found at boundary `b`, the last transition at `t` (R112, R114, R115). -/
def BmcSt.idle (x : BmcSt) (t b : StationTime) : List RawWord × BmcSt :=
  let ws :=
    match x.phase with
    | .hunt _ _ _ => []
    | .frame y =>
      (if y.count = 0 ∧ x.halfPending.isNone then []
        else [y.error x.halfPending.isSome (x.halfPending.getD t) t]) ++ [rawWord .fin 0 t b]
  (ws, { x with phase := BmcPhase.fresh, halfPending := none, idleFound := true })

/-- A transition at `b` after one at `t`, without idle between (R112, R113). -/
def BmcSt.interval (x : BmcSt) (c : BmcCfg) (t b : StationTime) : List RawWord × BmcSt :=
  match c.classify (tdiff b t), x.halfPending with
  | .full, none => x.takeBit false t b
  | .half, none => ([], { x with halfPending := some t })
  | .half, some s => BmcSt.takeBit { x with halfPending := none } true s b
  | .full, some _ | .error, _ => x.bitError t b

/-- A BMC unit takes an element (R112–R115): `moved` when its channel's level differs from its copy. -/
def BmcSt.step (x : BmcSt) (c : BmcCfg) (moved : Bool) (b : StationTime) : List RawWord × BmcSt :=
  let (ws, x) :=
    match x.lastTransition with
    | some t => if !x.idleFound && decide ((c.fullMax : Int) < tdiff b t) then x.idle t b else ([], x)
    | none => ([], x)
  if moved then
    let (ws', x) :=
      match x.lastTransition with
      | some t => if x.idleFound then ([], x) else x.interval c t b
      | none => ([], x)
    (ws ++ ws', { x with lastTransition := some b, idleFound := false })
  else (ws, x)

/-! ## A unit (R96–R101) -/

/-- The channels a kind reads (R96). -/
def DecCfg.channels : DecCfg → List Chan
  | .off => []
  | .uart c => [c.ch]
  | .spi c => c.clock :: (c.dataOut.toList ++ c.dataIn.toList ++ c.select.toList)
  | .i2c scl sda => [scl, sda]
  | .bmc c => [c.ch]

/-- The unit's machine takes an element (R102–R115); the first after an ARM is the arm boundary's and sets its starting
state (R97). -/
def Assembly.step (a : Assembly) (c : DecCfg) (old : ChanSet) (e : Element) : List RawWord × Assembly :=
  let b := e.boundary
  match c, a with
  | .off, _ => ([], .fresh)
  | .uart c, .uart u =>
    let (ws, u) := u.step c b (chanBit e.levels c.ch == c.idleHigh)
    (ws, .uart u)
  | .uart c, _ => ([], .uart (UartSt.atArm (chanBit e.levels c.ch == c.idleHigh)))
  | .spi c, .spi x =>
    let (ws, x) := x.step c old e.levels b
    (ws, .spi x)
  | .spi c, _ => ([], .spi (SpiSt.atArm c e.levels b))
  | .i2c scl sda, .i2c x =>
    let (ws, x) := x.step scl sda old e.levels b
    (ws, .i2c x)
  | .i2c _ _, _ => ([], .i2c (I2cSt.atArm b))
  | .bmc c, .bmc x =>
    let (ws, x) := x.step c (chanBit old c.ch != chanBit e.levels c.ch) b
    (ws, .bmc x)
  | .bmc _, _ => ([], .bmc BmcSt.atArm)

/-- UNDERSAMPLED as decided at ARM for UART and BMC, at sample period `p` (R101). -/
def DecCfg.undersampled (c : DecCfg) (p : Nat) : Bool :=
  match c with
  | .uart c => decide (c.bit16 < 64 * p)
  | .bmc c => decide (c.halfMin < 4 * p)
  | .off | .spi _ | .i2c _ _ => false

/-- A completed word with its decoder, segment and flags (R98–R101). -/
def DecUnit.finish (x : DecUnit) (u : Fin 4) (p : Nat) (seg : Fin 8) (w : RawWord) : Word where
  decoder := u
  kind := w.kind
  value := w.value
  value2 := w.value2
  start := w.start
  stop := w.stop
  flags := {
    parity := w.parity
    framing := w.framing
    short := w.short
    undersampled := x.undersampled || (match w.half with | some m => decide (m < 4 * (p : Int)) | none => false)
    glitched := match x.lastGlitch with | some t => notAfter w.covers t | none => false
    acked := w.acked }
  matched := none
  seg := seg

/-- A unit takes an element: its words, in order, and the unit after it (R98–R100). The boundary of a glitch is
forgotten once 2^47 ticks have passed, beyond which two station times no longer compare (1.8). -/
def DecUnit.take (x : DecUnit) (u : Fin 4) (p : Nat) (seg : Fin 8) (e : Element) : List Word × DecUnit :=
  match x.cfg with
  | none => ([], x)
  | some d =>
    if d.cfg = .off then ([], x)
    else
      let (ws, a) := x.assembly.step d.cfg x.levels e
      let x := { x with
        assembly := a
        levels := e.levels
        lastGlitch :=
          if d.cfg.channels.any (chanBit e.glitch) then some e.boundary
          else x.lastGlitch.filter fun t => notAfter t e.boundary }
      (ws.map (x.finish u p seg), x)

/-- Decoder unit `u` takes an element, while the units run (R97); a word with UNDERSAMPLED raises UNDERSAMPLED_SEEN
(R101). -/
def State.decElement (s : State) (u : Fin 4) (e : Element) : List Word × State :=
  if s.decoders.running then
    let p := match s.session.active with | some a => period a.general.rate | none => 1
    let (ws, x) := (vget s.decoders.units u).take u p (s.session.k.getD 0) e
    (ws, { s with
      decoders := { s.decoders with
        units := vset s.decoders.units u x
        undersampledSeen := s.decoders.undersampledSeen || ws.any (·.flags.undersampled) } })
  else ([], s)

/-! ## ARM (R96, R97, R101) -/

/-- A unit after an accepted ARM (R96, R97, R101). -/
def DecUnit.arm (x : DecUnit) (d : DecPart) (p : Nat) : DecUnit where
  cfg := some d
  undersampled := d.cfg.undersampled p
  assembly := .fresh
  levels := x.levels
  lastGlitch := none

/-- The units after an accepted ARM (R96, R97). -/
def Decoders.arm (d : Decoders) (p : Plan) : Decoders :=
  { d with
    units := Vector.ofFn fun u => (vget d.units u).arm (vget p.decoders u) (period p.general.rate)
    running := true }

end Sys2Proof.Machine
end

