-- ==== Sys2Proof/Machine/Boundary.lean ====
section
/-! DEFINITION. One element of the sampled stream on its way to its consumers (R9, R98, R99); and the meaning of
SAMPLE_BOUNDARY. -/

namespace Sys2Proof.Machine

/-- How far the delivery of one element has come: which consumers have taken it, and for each unit that has, the words
it completed that the filter has not taken yet. -/
structure Delivery where
  stored : Bool
  sequenced : Bool
  words : Vector (Option (List Word)) 4
  deriving DecidableEq, Repr

/-- No consumer has taken the element. -/
def Delivery.start : Delivery where
  stored := false
  sequenced := false
  words := Vector.replicate 4 none

/-- A word and the cue it raises, taken whole by the filter (R119, R120). -/
def State.takeWord (s : State) (w : Word) (b : StationTime) : State :=
  match s.cueOf w with
  | some i => (s.filterWord w).seqCue i w.stop b
  | none => s.filterWord w

/-- The filter takes the first of the words a unit has completed. -/
def Delivery.takeNext (d : Delivery) (s : State) (u : Fin 4) (ws : List Word) (b : StationTime) : Delivery × State :=
  match ws with
  | [] => ({ d with words := vset d.words u (some []) }, s)
  | w :: l => ({ d with words := vset d.words u (some l) }, s.takeWord w b)

/-- A fire formed before this boundary is taken before the store takes the boundary's element, since it becomes an offer at
once (R81) and its TRIGGER record lies at or before its fire boundary (R26, log entry 26). -/
def State.takeEarlierFire (s : State) (e : Element) : State :=
  match s.mark.handed with
  | some f => if f.boundary = e.boundary then s else s.takeHanded
  | none => s

/-- One consumer takes the element, or the filter takes the next word of a unit (R9, R98), or the mark unit a fire formed
at this boundary or before it (R67). -/
def Delivery.consume (e : Element) (x : Delivery × State) (c : Consumer) : Delivery × State :=
  let (d, s) := x
  match c with
  | .store => if d.stored then (d, s) else ({ d with stored := true }, (s.takeEarlierFire e).storeElement e)
  | .sequencer => if d.sequenced then (d, s) else ({ d with sequenced := true }, s.seqElement e)
  | .mark => (d, s.takeHanded)
  | .decoder u =>
    match vget d.words u with
    | none =>
      let (ws, s) := s.decElement u e
      d.takeNext s u ws e.boundary
    | some ws => d.takeNext s u ws e.boundary

/-- What an order of consumers leaves out follows at its end: the store, the sequencer, the units with all their words.
The mark unit does not: a fire it has no place for in the order is taken after the boundary (R74, log entry 26). A unit
completes at most three words at one element. -/
def fullSchedule (sched : List Consumer) : List Consumer :=
  sched ++ [.store, .sequencer] ++ (List.finRange 4).flatMap fun u => List.replicate 4 (.decoder u)

/-- An element delivered to the consumers in an order (R9). -/
def State.deliver (s : State) (sched : List Consumer) (e : Element) : State :=
  ((fullSchedule sched).foldl (Delivery.consume e) (Delivery.start, s)).2

/-- A sample boundary (R6–R10): the front end delivers its element, and the consumers take it in the order given. A
trigger notice that was to come later reaches the sequencer after it (R69). -/
def State.boundary (s : State) (sched : List Consumer) : State :=
  let e := s.frontEnd.element s.time
  (State.deliver { s with frontEnd := s.frontEnd.deliver s.time } sched e).deliverNotice

/-- SAMPLE_BOUNDARY (R9). -/
def execSampleBoundary (sched : List Consumer) (s : State) : Host.Outcome State Fault Refusal :=
  .next (if s.boundaryDue then s.boundary sched else s)

end Sys2Proof.Machine
end

