-- ==== Sys2Proof/Machine/Asks.lean ====
section
/-! DEFINITION. The ask service (chapter 10): the ask table, service, refusals, status replies and the ends of entries;
and the meanings of REDUCE_ASK, WORDS_ASK, STATUS_ASK, STOP and ASK_SERVICE_START. -/

namespace Sys2Proof.Machine

/-! ## The table (R170) -/

/-- An entry from the bus with this asker and tag. -/
def AskEntry.isAsk (e : AskEntry) (asker : Station) (tag : Byte) : Bool := !e.own && e.asker == asker && e.tag == tag

/-- The frames of an entry with this id, by their origin. -/
def Origin.isPartOf (o : Origin) (id : Nat) : Bool := o == .askPart id

/-- An entry is abandoned (R177, R179): its frames not on the wire are withdrawn and it leaves the table, which frees the
engine. DEDUCED: a part of it that was displaced and returned is dropped, of which neither rule speaks (log entry 68). -/
def State.abandonEntry (s : State) (id : Nat) : State :=
  let s := s.withdraw fun e => e.origin.isPartOf id
  { s with
    asks := { s.asks with
      table := s.asks.table.filter fun e => e.id != id
      returned := s.asks.returned.filter fun h => !h.origin.isPartOf id } }

/-- A frame goes into the list of pending refusal frames. -/
def State.addRefusal (s : State) (asker : Station) (tag : Byte) (busy : Bool) (f : TxFrame) : State :=
  let keep := if busy then s.asks.refusals.filter fun r => !(r.busy && r.asker == asker) else s.asks.refusals
  { s with
    asks := { s.asks with
      refusals := keep ++ [{ asker := asker, tag := tag, busy := busy, held := s.hold .askRefusal f }] }
    order := s.order + 1 }

/-- A refusal of an entry with an outcome (R170, R171). -/
def State.refuse (s : State) (e : AskEntry) (busy : Bool) (o : OutcomeCode) : State :=
  s.addRefusal e.asker e.tag busy ((emptyPart e.tag e.words o 0 0).frame e.asker)

/-- An entry put at the end of the order. -/
def State.appendEntry (s : State) (e : AskEntry) : State :=
  { s with asks := { s.asks with table := s.asks.table ++ [e] }, order := s.order + 1 }

/-- A WAITING entry overwritten in its place (R170). -/
def State.overwriteEntry (s : State) (old e : AskEntry) : State :=
  { s with
    asks := { s.asks with table := s.asks.table.map fun x => if x.id = old.id then { e with id := old.id } else x }
    order := s.order + 1 }

/-- A REDUCE_ASK or WORDS_ASK dispatched to the ask service (R170). -/
def State.takeAsk (words : Bool) (f : RxFrame) (s : State) : State :=
  if f.src = s.bus.own ∨ f.payload.length ≠ 17 then s
  else
    let e := readAsk s.order f.src words f.payload
    match s.asks.table.find? fun x => x.isAsk e.asker e.tag with
    | some old => if old.serving then (s.abandonEntry old.id).appendEntry e else s.overwriteEntry old e
    | none => if s.asks.table.length < Config.askEntries then s.appendEntry e else s.refuse e true .busy

/-- A STATUS_ASK dispatched to the ask service (R181). DESIGN CHOICE (log entry 64): a reply is being placed until its
last part has been placed once; a part of it that is displaced and returned after that does not hold off a new reply. -/
def State.takeStatusAsk (f : RxFrame) (s : State) : State :=
  if f.src = s.bus.own ∨ f.payload.length ≠ 1 then s
  else
    let sel := readSelector (byteAt f.payload 0)
    if s.asks.status.any fun r => r.asker == f.src && r.selector == sel then s
    else
      { s with
        asks := { s.asks with
          status := s.asks.status ++ [{ asker := f.src, selector := sel, since := s.order, composed := none }] }
        order := s.order + 1 }

/-- A STOP dispatched to the ask service (R179). DESIGN CHOICE (log entry 58): a BUSY frame that was placed and returned is
a returned frame and no pending BUSY frame, so neither a STOP nor a newer BUSY (R170) removes it. -/
def State.takeStop (f : RxFrame) (s : State) : State :=
  if f.payload.length ≠ 1 then s
  else
    let tag := byteAt f.payload 0
    let s := { s with
      asks := { s.asks with
        refusals := s.asks.refusals.filter fun r => !(r.busy && r.asker == f.src && r.tag == tag) } }
    match s.asks.table.find? fun x => x.isAsk f.src tag with
    | some e => (s.abandonEntry e.id).placeFreed
    | none => s

/-! ## Service (R171, R178) -/

/-- The oldest WAITING entry (R171). -/
def AskService.oldestWaiting (a : AskService) : Option AskEntry := a.table.find? fun e => !e.serving

/-- The reduction engine is busy with an entry. -/
def AskService.engineBusy (a : AskService) : Bool := a.table.any (·.serving)

/-- The engine is free and an entry waits (R171). -/
def State.serviceDue (s : State) : Bool := !s.asks.engineBusy && s.asks.oldestWaiting.isSome

/-- An entry leaves the table. -/
def State.removeEntry (s : State) (id : Nat) : State :=
  { s with asks := { s.asks with table := s.asks.table.filter fun e => e.id != id } }

/-- An own entry's reply handed whole to the view engine (R178); the entry then leaves the table. -/
def State.handOwn (s : State) (e : AskEntry) (parts : List Part) : State :=
  ((parts.foldl (fun s p => s.takePart s.bus.own p) s).removeEntry e.id).placeFreed

/-- An entry set SERVING with its reply (R171, R177). -/
def State.serve (s : State) (e : AskEntry) (parts : List Part) : State :=
  { s with
    asks := { s.asks with
      table := s.asks.table.map fun x =>
        if x.id = e.id then { x with serving := true, parts := parts, readySince := s.order } else x }
    order := s.order + 1 }

/-- The engine takes an entry into service (R171): checked against the present state, then refused or computed whole. -/
def State.startService (s : State) (e : AskEntry) : State :=
  match s.askCheck e with
  | some o =>
    if e.own then s.handOwn e [emptyPart e.tag e.words o 0 0]
    else ((s.refuse e false o).removeEntry e.id).placeFreed
  | none => if e.own then s.handOwn e (s.computeReply e) else s.serve e (s.computeReply e)

/-! ## Results of reply frames (R177) -/

/-- A part of an entry was SENT (R177). -/
def State.partSent (s : State) (id : Nat) : State :=
  { s with
    asks := { s.asks with table := s.asks.table.map fun e => if e.id = id then { e with sent := e.sent + 1 } else e } }

/-- A part of an entry was UNHEARD or SPOILED (R177): the entry, if it is still in the table, is abandoned. -/
def State.partLost (s : State) (id : Nat) : State :=
  if s.asks.table.any fun e => e.id == id then (s.abandonEntry id).placeFreed else s

/-! ## Ends of entries (R180) -/

/-- A frame of kind RUNS or BOXES. -/
def TxFrame.isReply (f : TxFrame) : Bool := f.kind == kRuns || f.kind == kBoxes

/-- Part index and first column of the GONE frame of an entry (R180). -/
def State.goneAt (s : State) (e : AskEntry) : Nat × Nat :=
  let onWire := match s.bus.wireFrame with | some x => x.origin.isPartOf e.id | none => false
  let i := e.sent + if onWire then 1 else 0
  (i, match e.parts[i]? with | some p => p.first | none => 0)

/-- One entry ended with GONE (R180). -/
def State.endGone (s : State) (e : AskEntry) : State :=
  if e.own then s.takePart s.bus.own (emptyPart e.tag e.words .gone 0 0)
  else
    let (i, c) := s.goneAt e
    s.addRefusal e.asker e.tag false ((emptyPart e.tag e.words .gone i c).frame e.asker)

/-- An accepted ARM ends every entry with GONE (R180): all RUNS and BOXES frames not on the wire are withdrawn. -/
def State.asksGone (s : State) : State :=
  let entries := s.asks.table
  let s := entries.foldl State.endGone s
  let s := s.withdraw fun e => e.frame.isReply
  let s := { s with
    asks := { s.asks with
      table := []
      returned := s.asks.returned.filter fun h => match h.origin with | .askPart _ => false | _ => true } }
  s.placeFreed

/-- A frame of the ask service, by its origin. -/
def Origin.isAsk : Origin → Bool
  | .askPart _ | .askRefusal | .askStatus => true
  | .markUnit | .timeNote | .rollCall | .session | .feed _ | .viewAsk _ | .viewStop | .viewNote => false

/-- An asker has gone ABSENT (R180): its entries end, its frames not on the wire are withdrawn, and what is pending for
it is removed. -/
def State.askerAbsent (s : State) (p : Station) : State :=
  let s := s.withdraw fun e => e.origin.isAsk && e.frame.dst == p
  let s := { s with
    asks := {
      table := s.asks.table.filter fun e => e.own || e.asker != p
      refusals := s.asks.refusals.filter fun r => r.asker != p
      status := s.asks.status.filter fun r => r.asker != p
      returned := s.asks.returned.filter fun h => h.frame.dst != p } }
  s.placeFreed

/-! ## Status replies (R181–R183, R204) -/

/-- SUMMARY part 0 (R182, R204). -/
def State.summarySession (s : State) : List Byte :=
  b1 s.session.state.code ++ kByte s.session.k ++ sByte s.session.active ++ b1 s.sequencer.state.code ++
    b1 s.sequencer.stage.val ++ b2 s.sequencer.count ++ b2 s.mark.missed ++
    s.store.headers.toList.flatMap fun h => b1 h.state.code

/-- SUMMARY part 1 (R182, R204). -/
def State.summarySegments (s : State) : List Byte :=
  s.store.headers.toList.flatMap fun h => b2 h.merged ++ b2 h.lateMarks ++ b2 h.lateFires

/-- SUMMARY part 2 (R182, R204): the held counts, then every counter in the order of R133. -/
def State.summaryWords (s : State) : List Byte :=
  let w := s.words
  b2 w.qa.words.length ++ b2 w.qb.words.length ++
    [w.completed, w.discarded, w.lost, w.latched, w.trimmedAtCompletion, w.qa.enqueued, w.qb.enqueued,
      w.qa.overwritten, w.qb.overwritten, w.qa.trimmed, w.qb.trimmed, w.qa.feedMissed, w.qb.feedMissed].flatMap
      fun (c : BitVec 32) => beBytes 4 c.toNat

/-- The `count` bytes of an absent item in a report, free values (log entry 34). -/
def absentBytes (report what n count : Nat) : List Byte := (List.range count).map (Config.absentByte report what n)

/-- Place `n` of the edge list in a report (R204); a place that the list does not reach has no stated content. -/
def edgeBytes (report n : Nat) (e : Option MarkEdge) : List Byte :=
  match e with
  | some e => b6 e.stamp ++ [if e.rising then 1 else 0]
  | none => absentBytes report 1 n 7

/-- SUMMARY part 3 (R182, R204). -/
def State.summaryLink (s : State) : List Byte :=
  b1 s.bus.score ++ b1 s.bus.link.code ++ b2 s.frontEnd.activity.toNat ++ [s.stickyByte] ++ b1 s.peers.driftMask ++
    b1 s.mark.edges.length ++ (List.range 4).flatMap fun i => edgeBytes s.order i s.mark.edges[i]?

/-- Peer `n` in SUMMARY part 4 (R204). Of details that are not held, the cadence bit is an optional one-byte number and FFH
(R199); the two bank bits, the part code and the panel bit have no stated content (log entry 34), and the bits that the table
does not name are 0 (R204). DESIGN CHOICE: bit n of the bank bits stands for bank n (log entry 70). -/
def Peer.bytes (p : Peer) (report n : Nat) : List Byte :=
  let panel := match p.details with | some d => d.panel | none => bit (Config.absentByte report 2 n 3) 0
  flagByte [(0, p.present), (1, p.details.isSome), (2, p.current.isSome), (3, p.skewValid), (4, panel)] ::
    (match p.details with
    | some d => b1 d.banks.toNat ++ [d.cadence] ++ b2 d.part.toNat
    | none =>
      (Config.absentByte report 2 n 0 &&& 0x03) :: 0xFF :: [Config.absentByte report 2 n 1, Config.absentByte report 2 n 2])

/-- SUMMARY part 4 (R182, R204). -/
def State.summaryPeers (s : State) : List Byte :=
  (List.finRange 8).flatMap fun i => (s.peer i).bytes s.order i.val

/-- One part of a status reply (R181, R204): type 3 for SUMMARY, 4 for LATCHES. -/
def statusFrame (dst : Station) (type part : Nat) (content : List Byte) : TxFrame :=
  addressed kStatusNote dst (noteHead type .ok part ++ content)

/-- The five parts of a SUMMARY reply (R182). -/
def State.summaryFrames (s : State) (dst : Station) : List TxFrame :=
  [statusFrame dst 3 0 s.summarySession, statusFrame dst 3 1 s.summarySegments, statusFrame dst 3 2 s.summaryWords,
    statusFrame dst 3 3 s.summaryLink, statusFrame dst 3 4 s.summaryPeers]

/-- The bits of byte `i` of a word record that R200 names. -/
def wordRecordBits (i : Nat) : Byte := if i = 0 then 0xEF else if i = 17 then 0x3F else 0xFF

/-- Slot `n` in a LATCHES reply (R183, R204); the word of an empty slot has no stated content, but the bits that the word
record does not name are 0 (R200, R204). -/
def Latch.bytes (l : Latch) (report n : Nat) : List Byte :=
  flagByte [(0, l.word.isNone), (1, l.isNew)] :: b2 l.overrun ++
    match l.word with
    | some w => w.bytes
    | none => (List.range 19).map fun i => Config.absentByte report 0 n i &&& wordRecordBits i

/-- Slot `n` of the word memory in a report (R183). -/
def State.slotBytes (s : State) (n : Fin 8) : List Byte := (vget s.words.latches n).bytes s.order n.val

/-- The four parts of a LATCHES reply (R183). -/
def State.latchFrames (s : State) (dst : Station) : List TxFrame :=
  (List.finRange 4).map fun n =>
    statusFrame dst 4 n.val (s.slotBytes ⟨2 * n.val, by omega⟩ ++ s.slotBytes ⟨2 * n.val + 1, by omega⟩)

/-- A status reply composed whole (R181–R183): its frames, and the state after the clears on report. -/
def State.compose (s : State) (r : StatusReply) : List TxFrame × State :=
  match r.selector with
  | .summary =>
    (s.summaryFrames r.asker, { s.clearSticky with frontEnd := { s.frontEnd with activity := 0 } })
  | .latches =>
    (s.latchFrames r.asker,
      { s with words := { s.words with latches := s.words.latches.map fun l => { l with isNew := false } } })
  | .other => ([selectorRefusalFrame r.asker], s)

/-! ## Meanings -/

/-- REDUCE_ASK (R170). -/
def execReduceAsk (f : RxFrame) (s : State) : Host.Outcome State Fault Refusal :=
  .next (s.receive f (State.takeAsk false f))

/-- WORDS_ASK (R170). -/
def execWordsAsk (f : RxFrame) (s : State) : Host.Outcome State Fault Refusal :=
  .next (s.receive f (State.takeAsk true f))

/-- STATUS_ASK (R181). -/
def execStatusAsk (f : RxFrame) (s : State) : Host.Outcome State Fault Refusal :=
  .next (s.receive f (State.takeStatusAsk f))

/-- STOP (R179). -/
def execStop (f : RxFrame) (s : State) : Host.Outcome State Fault Refusal :=
  .next (s.receive f (State.takeStop f))

/-- ASK_SERVICE_START (R171): the free engine takes the oldest WAITING entry. -/
def execAskServiceStart (s : State) : Host.Outcome State Fault Refusal :=
  .next
    (if s.serviceDue then
      match s.asks.oldestWaiting with
      | some e => s.startService e
      | none => s
    else s)

end Sys2Proof.Machine
end

