-- ==== Sys2Proof/Machine/Session.lean ====
section
/-! DEFINITION. Session control (chapter 3): the draft plan, ARM and its checks, HALT, RESTART and the full reset; and
the meanings of FULL_RESET, PLAN_PART, ARM, HALT and RESTART. -/

namespace Sys2Proof.Machine

/-! ## PLAN_PART (R39, R40) -/

/-- The session runs: ARMED or TRIGGERED. -/
def SessState.runs : SessState → Bool
  | .armed | .triggered => true
  | .idle | .done | .aborted => false

/-- A PLAN_PART dispatched to session control (R39, R40): the part replaces that part of the draft, and a GENERAL part
taken outside a session loads the front end. -/
def State.takePlanPart (f : RxFrame) (s : State) : State :=
  match f.payload with
  | [] => s
  | id :: part =>
    if planPartLength id.toNat = some part.length then
      let s := { s with session := { s.session with draft := s.session.draft.writePart id.toNat part } }
      if id.toNat = 0 ∧ !s.session.state.runs then s.load s.session.draft else s
    else s

/-! ## The checks of ARM (R43) -/

/-- GENERAL is refused (R43). -/
def General.bad (g : General) : Bool := (g.stageCount == 0) != (g.role == .follow)

/-- STAGE `n` is refused (R43). -/
def Stage.bad (st : Stage) (n count : Nat) : Bool :=
  decide (n < count) &&
    ((!st.satisfiedFires && decide (count ≤ n + 1)) ||
      match st.cond with
      | .pulse _ _ min max => max != 0 && decide (max < min)
      | .pattern _ _ | .edge _ _ | .glitch _ | .cue _ | .unassigned _ => false)

/-- A decoder's parameters are refused, whatever banks are fitted (R43). -/
def DecCfg.badFields : DecCfg → Bool
  | .off => false
  | .uart c => decide (c.bit16 < 128)
  | .spi c => c.dataOut.isNone && c.dataIn.isNone
  | .i2c _ _ => false
  | .bmc c => !(decide (c.halfMin ≤ c.halfMax) && decide (c.halfMax < c.fullMin) && decide (c.fullMin ≤ c.fullMax))

/-- A DECODER part is refused (R43): an OFF decoder is not validated. -/
def DecCfg.bad (c : DecCfg) (fe : FrontEnd) : Bool :=
  c.channels.any (fun ch => !fe.chanPresent ch) || c.badFields

/-- The decoders of a plan that are not OFF, as a set (R43). -/
def Plan.activeDecoders (p : Plan) : BitVec 4 :=
  (List.finRange 4).foldl
    (fun s u => if (vget p.decoders u).cfg = .off then s else s ||| BitVec.ofNat 4 (2 ^ u.val)) 0

/-- A destination that names a latch slot above 7 (R43). -/
def Dest.badSlot : Dest → Bool
  | .latch n => decide (8 ≤ n.toNat)
  | .queue _ | .discard => false

/-- A filter entry is refused (R43); a disabled entry is not checked. -/
def FilterEntry.bad (e : FilterEntry) (active : BitVec 4) : Bool :=
  e.enabled && (e.decoders &&& active == 0 || e.dest.badSlot)

/-- Every part with its identity and whether it is refused, in identity order (R43). -/
def Plan.checks (p : Plan) (fe : FrontEnd) : List (Nat × Bool) :=
  [(0, p.general.bad)] ++
    ((List.finRange 4).map fun n => (1 + n.val, (vget p.stages n).bad n.val p.general.stageCount)) ++
    ((List.finRange 4).map fun n => (5 + n.val, (vget p.decoders n).cfg.bad fe)) ++
    ((List.finRange 6).map fun n =>
      (9 + n.val, (List.finRange 24).any fun i =>
        i.val / 4 == n.val && (vget p.filters i).bad p.activeDecoders)) ++
    [(15, decide (1024 < p.qa.capacity + p.qb.capacity))]

/-- The identity of the first part that fails its checks; none for a valid plan (R43). -/
def Plan.firstBad (p : Plan) (fe : FrontEnd) : Option Nat := ((p.checks fe).find? (·.2)).map (·.1)

/-! ## An accepted ARM (R44) -/

/-- The values the store takes from a plan (R15). -/
def Plan.layout (p : Plan) : Layout :=
  { segCode := p.general.segCode, rate := p.general.rate, p := p.general.p, postTime := p.general.postTime }

/-- The store cleared and cut into segments (R34). -/
def Store.arm (st : Store) (p : Plan) : Store :=
  { Store.reset with layout := some p.layout, mergedSeen := st.mergedSeen, writeWait := st.writeWait }

/-- The session's notes after an accepted ARM: waiting closure notes are discarded (R51). -/
def Session.dropClosures (x : Session) : Session :=
  { x with
    notes := x.notes.filter fun n => n.kind != .closure
    returned := x.returned.filter fun h => noteKindOf h.frame != .closure }

/-- An accepted ARM (R44): the draft becomes the active plan and each block starts a new session. -/
def State.acceptArm (s : State) : State :=
  let p := s.session.draft
  let s := s.load p
  let b := s.frontEnd.nextBoundary
  let s := { s with
    session := { s.session.dropClosures with active := some p }
    store := s.store.arm p
    sequencer := s.sequencer.arm p
    mark := s.mark.arm p.general
    decoders := s.decoders.arm p
    words := s.words.arm p s.bus.own }
  let s := s.startSegment p.layout 0 b
  s.asksGone.noteChange b

/-- An ARM that names this station (R43): refused BUSY or BAD_PART, or accepted. -/
def State.arm (s : State) : State :=
  if s.session.state.runs then s.noteRefusal none
  else
    match s.session.draft.firstBad s.frontEnd with
    | some id => s.noteRefusal (some id)
    | none => s.acceptArm

/-- An ARM dispatched to session control (R43): ignored where this station's entry of the mask is clear. -/
def State.takeArm (f : RxFrame) (s : State) : State :=
  if f.payload.length = 1 ∧ bit (byteAt f.payload 0) s.bus.own.val then s.arm else s

/-! ## HALT and RESTART (R48, R50) -/

/-- A HALT dispatched to session control (R48). -/
def State.takeHalt (f : RxFrame) (s : State) : State :=
  if f.payload.length = 0 ∧ s.session.state.runs then s.abort true else s

/-- The front end after a full reset: the comparators and what drives them are not reset (R3, R13). -/
def FrontEnd.fullReset (fe : FrontEnd) (pins : Straps) : FrontEnd :=
  { FrontEnd.reset pins.bs0 pins.bs1 with
    probe := fe.probe
    comparator := fe.comparator
    registered := fe.registered
    switchThreshold := fe.switchThreshold
    switchHysteresis := fe.switchHysteresis }

/-- A full reset with these pin levels (R13, R35, R42, R76, R95, R116, R136, R156, R169, R184, R198). What is outside
the part stays: the probe inputs, the levels at MRX and DRX, and the commands that wait. -/
def State.fullReset (s : State) (pins : Straps) : State where
  pending := s.pending
  time := 0
  pins := pins
  frontEnd := s.frontEnd.fullReset pins
  store := Store.reset
  session := Session.reset
  sequencer := Sequencer.reset
  mark := MarkUnit.reset s.mark.mrx
  decoders := Decoders.reset
  words := Words.reset
  bus := Bus.reset pins s.bus.drxPin
  peers := PeerTable.reset
  asks := AskService.reset
  view := View.reset pins.pnl
  order := s.order
  choice := s.choice

/-- A RESTART dispatched to session control (R50): a full reset, only when addressed with the broadcast bit clear. -/
def State.takeRestart (f : RxFrame) (s : State) : State :=
  if f.payload.length = 0 ∧ !f.bcast then s.fullReset s.pins else s

/-! ## Meanings -/

/-- FULL_RESET (R156): power-on or the RESET pin. -/
def execFullReset (pins : Straps) (s : State) : Host.Outcome State Fault Refusal := .next (s.fullReset pins)

/-- PLAN_PART (R39). -/
def execPlanPart (f : RxFrame) (s : State) : Host.Outcome State Fault Refusal :=
  .next (s.receive f (State.takePlanPart f))

/-- ARM (R43). -/
def execArm (f : RxFrame) (s : State) : Host.Outcome State Fault Refusal :=
  .next (s.receive f (State.takeArm f))

/-- HALT (R48). -/
def execHalt (f : RxFrame) (s : State) : Host.Outcome State Fault Refusal :=
  .next (s.receive f (State.takeHalt f))

/-- RESTART (R50). -/
def execRestart (f : RxFrame) (s : State) : Host.Outcome State Fault Refusal :=
  .next (s.receive f (State.takeRestart f))

end Sys2Proof.Machine
end

