-- ==== Sys2Proof/Machine/Results.lean ====
section
/-! DEFINITION. What the result of an own frame does at its originator (R150), and the changes of the link state that
clear the queue or bring the station back (R151–R154). -/

namespace Sys2Proof.Machine

/-! ## Results at the originators (R150) -/

/-- An own frame was SENT, its start edge stamped at `stamp` (R150, R163, R177, R190). -/
def State.reportSent (s : State) (e : QEntry) (stamp : StationTime) : State :=
  match e.origin with
  | .timeNote => { s with peers := { s.peers with lastSent := some stamp, nextSeq := s.peers.nextSeq + 1 } }
  | .askPart id => s.partSent id
  | .viewAsk tag => s.askSent tag
  | .markUnit | .rollCall | .session | .feed _ | .askRefusal | .askStatus | .viewStop | .viewNote => s

/-- An own frame was UNHEARD or SPOILED (R150): a reply part abandons its entry, an ask frame fails its lane, and every
other originator drops it. -/
def State.reportLost (s : State) (e : QEntry) : State :=
  match e.origin with
  | .askPart id => s.partLost id
  | .viewAsk tag => s.askLost tag
  | .markUnit | .timeNote | .rollCall | .session | .feed _ | .askRefusal | .askStatus | .viewStop | .viewNote => s

/-- A TIME_NOTE that waited for the result of the one on the wire is placed (R148). -/
def State.placeWaitingNote (s : State) : State :=
  if s.peers.noteWaiting then State.placeTimeNote { s with peers := { s.peers with noteWaiting := false } } else s

/-- The result of an own TIME_NOTE lets the one that waited for it be placed (R148); another frame's result does not. -/
def State.noteAfter (s : State) (e : QEntry) : State :=
  match e.origin with
  | .timeNote => s.placeWaitingNote
  | .markUnit | .rollCall | .session | .feed _ | .askPart _ | .askRefusal | .askStatus | .viewAsk _ | .viewStop
  | .viewNote => s

/-! ## Leaving and regaining the bus (R152, R154) -/

/-- Entry to DETACHED or DUPLICATE (R154): DATA is no longer driven, every frame in the queue is reported SPOILED, a due
ROLL_CALL and TIME_NOTE are dropped (R161, R163), and remote asks not placed fail (R189). -/
def State.enterSilent (s : State) (link : LinkState) : State :=
  let frames := s.bus.queue
  let s := { s with
    bus := { s.bus with
      link := link
      queue := []
      onWire := none
      dtxDominant := false
      flagBits := 0
      rejoin := if link = .detached then some (after s.time Config.rejoinTicks) else none }
    peers := { s.peers with rollDue := none, noteWaiting := false, noteReturned := none } }
  (frames.foldl State.reportLost s).failUnplacedAsks

/-- The station rejoins from DETACHED (R154, R155, R161, R163). -/
def State.rejoinBus (s : State) : State :=
  let s := { s with
    bus := { s.bus with score := 0, link := .normal, rejoin := none }
    peers := { s.peers with lastSent := none } }
  s.rollDue false

/-- A new trouble score, in NORMAL and CAUTIOUS, sets the link state (R152). -/
def State.setScore (s : State) (n : Nat) : State :=
  let s := { s with bus := { s.bus with score := n } }
  match linkOfScore n with
  | .detached => s.enterSilent .detached
  | .normal => { s with bus := { s.bus with link := .normal } }
  | .cautious => { s with bus := { s.bus with link := .cautious } }
  | .joining | .duplicate => s

/-! ## Errors (R144, R145) -/

/-- Error signalling begins (R145): the frame in progress is over, a NORMAL station drives its flag of 8 bits, and the
line state stays FRAME. -/
def Bus.signalError (b : Bus) : Bus :=
  { b with
    line := some .frame
    errorFound := true
    flagBits := if b.link = .normal then 8 else 0
    dtxDominant := false
    rxBits := []
    startStamp := none }

end Sys2Proof.Machine
end

