-- ==== Sys2Proof/Machine/BusEvents.lean ====
section
/-! DEFINITION. The meanings of the pod bus controller's own events (chapter 8): BUS_FREE, TRANSMIT_START, FRAME_SENT,
FRAME_UNHEARD, FRAME_SPOILED, FRAME_RECEIVE_ERROR, REJOIN_TIMER_EXPIRY, JOIN_COMPLETE, BUS_BREAK, ERROR_SIGNALLING_END
and BREAK_END. Their causes are on DATA; a command asserts its cause, and takes effect where the state admits it. -/

namespace Sys2Proof.Machine

/-! ## Free bus and transmission (R141, R142) -/

/-- The station can begin a frame of its own (R141). -/
def State.canTransmit (s : State) : Bool :=
  s.bus.line == some .free && !s.bus.queue.isEmpty && s.bus.link.takesPart && s.bus.onWire.isNone

/-- The station begins the first frame of its queue (R141), which is on the wire unless the contention is lost
(R142). -/
def Bus.begin (b : Bus) (won : Bool) : Bus :=
  { b with
    line := some .frame
    onWire := if won then b.queue.head?.map (·.id) else none
    dtxDominant := won
    rxBits := []
    errorFound := false
    flagBits := 0 }

/-- BUS_FREE (R141): the eighth consecutive recessive bit in WAIT. -/
def execBusFree (s : State) : Host.Outcome State Fault Refusal :=
  .next
    (if s.bus.line = some .wait then { s with bus := { s.bus with line := some .free, recessiveRun := Config.freeBits } }
    else s)

/-- TRANSMIT_START (R141). -/
def execTransmitStart (won : Bool) (s : State) : Host.Outcome State Fault Refusal :=
  .next (if s.canTransmit then { s with bus := s.bus.begin won } else s)

/-! ## Results of own frames (R144, R145) -/

/-- FRAME_SENT (R144): no own-frame error and a dominant receipt slot. -/
def execFrameSent (stamp : StationTime) (s : State) : Host.Outcome State Fault Refusal :=
  .next
    (match s.bus.wireFrame with
    | some e =>
      let s := s.dropWire
      let s := { s with bus := { s.bus.goodFrame.endFrame with dtxDominant := false } }
      (s.reportSent e stamp).noteAfter e
    | none => s)

/-- FRAME_UNHEARD (R144): no own-frame error and a recessive receipt slot. -/
def execFrameUnheard (s : State) : Host.Outcome State Fault Refusal :=
  .next
    (match s.bus.wireFrame with
    | some e =>
      let s := s.dropWire
      let s := { s with bus := { s.bus.endFrame with dtxDominant := false } }
      (s.reportLost e).noteAfter e
    | none => s)

/-- FRAME_SPOILED (R144, R145): an own-frame error ends the frame, adds 8 to the score, and is signalled by the link
state it is found in. DESIGN CHOICE (log entry 62): the originator is told before the score changes. -/
def execFrameSpoiled (s : State) : Host.Outcome State Fault Refusal :=
  .next
    (match s.bus.wireFrame with
    | some e =>
      let s := s.dropWire
      let s := { s with bus := s.bus.signalError }
      let s := s.reportLost e
      let s := if s.bus.link.takesPart then s.setScore (scoreOwnError s.bus.score) else s
      s.noteAfter e
    | none => s)

/-- A received frame has its error found (R143, R145): the score rises by 1 in NORMAL and CAUTIOUS, and in DETACHED the
rejoin timer restarts (R154). -/
def State.takeRxError (s : State) : State :=
  let s := { s with bus := s.bus.signalError }
  if s.bus.link.takesPart then s.setScore (scoreRxError s.bus.score)
  else if s.bus.link = .detached then
    { s with bus := { s.bus with rejoin := some (after s.time Config.rejoinTicks) } }
  else s

/-- FRAME_RECEIVE_ERROR (R145). -/
def execFrameReceiveError (s : State) : Host.Outcome State Fault Refusal :=
  .next (if s.canReceive then s.takeRxError else s)

/-- Error signalling is over (R145): a recessive bit after the last dominant bit of any error flag. -/
def execErrorSignallingEnd (s : State) : Host.Outcome State Fault Refusal :=
  .next
    (if s.bus.line = some .frame ∧ s.bus.errorFound then { s with bus := { s.bus.endFrame with dtxDominant := false } }
    else s)

/-! ## Joining and rejoining (R153, R154) -/

/-- The rejoin timer has expired in DETACHED (R154). -/
def State.rejoinDue (s : State) : Bool := s.bus.link == .detached && timerDue s.time s.bus.rejoin

/-- REJOIN_TIMER_EXPIRY (R154). -/
def execRejoinTimerExpiry (s : State) : Host.Outcome State Fault Refusal :=
  .next (if s.rejoinDue then s.rejoinBus else s)

/-- JOIN_COMPLETE (R153): the join count reaches 20. -/
def execJoinComplete (s : State) : Host.Outcome State Fault Refusal :=
  .next
    (if s.bus.link = .joining ∧ !s.bus.inBreak then
      State.rollDue { s with
        bus := { s.bus with link := .normal, score := 0, line := some .free, joinCount := Config.joinBits } } false
    else s)

/-! ## Break (R155) -/

/-- A feed loses its returned frames (R131, R155); a feed left with nothing to place ends its draining (R130). -/
def WQueue.loseReturned (q : WQueue) : WQueue :=
  let q := { q with feed := { q.feed with returned := [] } }
  if q.feed.state = .draining ∧ q.unfed = 0 then { q with feed := q.feed.rest } else q

/-- The bus controller at a break (R155). -/
def Bus.takeBreak (b : Bus) : Bus :=
  { b with
    line := if b.link = .joining then none else some .brk
    inBreak := true
    dominantRun := Config.breakBits
    recessiveRun := 0
    joinCount := if b.link = .joining then 0 else b.joinCount
    rxBits := []
    startStamp := none
    errorFound := false
    flagBits := 0
    dtxDominant := false
    queue := []
    onWire := none
    score := 0
    link := if b.link = .cautious then .normal else b.link }

/-- The effects of a bus break, all at once (R155). -/
def State.takeBreak (s : State) : State :=
  let s := s.abort false
  let s := s.abandonPass
  let s := { s with
    bus := s.bus.takeBreak
    words := { s.words with qa := s.words.qa.loseReturned, qb := s.words.qb.loseReturned }
    asks := AskService.reset }
  let s := if s.bus.link = .detached then s.rejoinBus else s
  s.placeWaitingNote

/-- BUS_BREAK (R155): the 32nd consecutive dominant bit. -/
def execBusBreak (s : State) : Host.Outcome State Fault Refusal := .next (if s.bus.inBreak then s else s.takeBreak)

/-- BREAK_END (R155): the first recessive bit after a break; the line enters WAIT. A station that is JOINING counts that
bit (R153). -/
def execBreakEnd (s : State) : Host.Outcome State Fault Refusal :=
  .next
    (if s.bus.inBreak then
      { s with
        bus := { s.bus.endFrame with
          inBreak := false
          dominantRun := 0
          joinCount := if s.bus.link = .joining then 1 else s.bus.joinCount } }
    else s)

end Sys2Proof.Machine
end

