-- ==== Sys2Proof/Machine/PeerFrames.lean ====
section
/-! DEFINITION. The frames that the peer table takes (chapter 9, R91), and the presence timers: the meanings of
TIME_NOTE, ROLL_CALL, MARK_NOTE, WORDS_NOTE and PRESENCE_TIMEOUT. A frame that bears this station's own number touches
no record (R159). -/

namespace Sys2Proof.Machine

/-- A TIME_NOTE dispatched to the peer table (R164). -/
def State.takeTimeNote (f : RxFrame) (s : State) : State :=
  if f.src = s.bus.own ∨ f.payload.length ≠ 8 then s
  else
    let prev : Option StationTime :=
      if bit (byteAt f.payload 1) 0 then some (BitVec.ofNat 48 (field f.payload 2 6)) else none
    s.setPeer f.src ((s.peer f.src).takeNote (byteAt f.payload 0) prev f.stamp)

/-- A ROLL_CALL bears this station's own number (R154, R162). -/
def State.duplicateFound (s : State) : State :=
  match s.bus.link with
  | .normal | .cautious | .detached => s.enterSilent .duplicate
  | .joining | .duplicate => s

/-- A ROLL_CALL dispatched to the peer table (R162); `wasPresent` is the peer's presence before the frame. -/
def State.takeRollCall (wasPresent : Bool) (f : RxFrame) (s : State) : State :=
  match readRollCall f.payload with
  | none => s
  | some (answer, d) =>
    if f.src = s.bus.own then s.duplicateFound
    else
      let p := { s.peer f.src with details := some d }
      if !wasPresent then (s.setPeer f.src p).rollDue true
      else if answer then s.setPeer f.src p
      else s.setPeer f.src p.clearRelation

/-- The peer number of a MARK cause filled by the first note for its segment (R91). -/
def SegHeader.fillPeer (h : SegHeader) (p : Station) : SegHeader :=
  match h.trigTime, h.cause with
  | some _, some (.mark none) => { h with cause := some (.mark (some p)) }
  | _, _ => h

/-- A MARK_NOTE dispatched to the peer table (R91). -/
def State.takeMarkNote (f : RxFrame) (s : State) : State :=
  if f.src = s.bus.own ∨ f.payload.length ≠ 10 then s
  else
    let seg := byteAt f.payload 0
    let s := s.setPeer f.src { s.peer f.src with
      lastFire := some { seg := seg, stamp := BitVec.ofNat 48 (field f.payload 1 6) } }
    if h : seg.toNat < 8 then s.setHeader ⟨seg.toNat, h⟩ ((s.header ⟨seg.toNat, h⟩).fillPeer f.src) else s

/-! ## Meanings -/

/-- TIME_NOTE (R164). -/
def execTimeNote (f : RxFrame) (s : State) : Host.Outcome State Fault Refusal :=
  .next (s.receive f (State.takeTimeNote f))

/-- ROLL_CALL (R162). -/
def execRollCall (f : RxFrame) (s : State) : Host.Outcome State Fault Refusal :=
  .next (s.receive f (State.takeRollCall (s.peer f.src).present f))

/-- MARK_NOTE (R91). -/
def execMarkNote (f : RxFrame) (s : State) : Host.Outcome State Fault Refusal :=
  .next (s.receive f (State.takeMarkNote f))

/-- WORDS_NOTE (R143): dispatched to no block; the frame is heard and counted like any good frame. -/
def execWordsNote (f : RxFrame) (s : State) : Host.Outcome State Fault Refusal := .next (s.receive f id)

/-- PRESENCE_TIMEOUT (R160): the peer goes ABSENT, and the ask service is told (R180). -/
def execPresenceTimeout (p : Station) (s : State) : Host.Outcome State Fault Refusal :=
  .next
    (if (s.peer p).timedOut s.time then (s.setPeer p (s.peer p).goAbsent).askerAbsent p else s)

end Sys2Proof.Machine
end

