-- ==== Sys2Proof/Machine/Place.lean ====
section
/-! DEFINITION. Handing out the places of the transmit queue (R147): which sources wait, with which frame, and what
placing that frame does; and the meaning of PLACE_GRANTED. -/

namespace Sys2Proof.Machine

/-! ## What waits (R147) -/

/-- What is placed when a source is given the place. -/
inductive Pick where
  /-- a note returned to session control -/
  | sessionReturned (h : Held)
  /-- the oldest waiting note of session control (R51) -/
  | sessionNote (n : Note)
  /-- a frame returned to the ask service (R177) -/
  | askReturned (h : Held)
  /-- the next part of the entry in service (R177) -/
  | askPart (e : AskEntry) (p : Part)
  /-- a pending refusal or GONE frame (R177) -/
  | refusal (r : Refused)
  /-- the next part of a pending status reply (R181) -/
  | status (r : StatusReply)
  /-- an ask of the view engine (R189) -/
  | viewAsk (h : Held)
  /-- a STOP of the view engine (R190) -/
  | viewStop (h : Held)
  /-- the NO_PANEL refusal (R185) -/
  | viewNote (h : Held)
  /-- the next frame of a feed (R130) -/
  | feed (q : QueueId)
  /-- a returned TIME_NOTE (R163) -/
  | timeNote (h : Held)
  /-- the due ROLL_CALL (R161) -/
  | rollCall (r : RollDue)
  deriving DecidableEq, Repr

/-- A waiting frame: its kind, the order number from which it waits, and what placing it is. -/
structure Waiting where
  kind : Nat
  since : Nat
  pick : Pick
  deriving DecidableEq, Repr

/-- A waiting frame that is held. -/
def Held.waiting (h : Held) (p : Pick) : Waiting := { kind := h.frame.kind.toNat, since := h.since, pick := p }

/-- The waiting frame that comes first: lowest kind, then longest wait (R147). -/
def firstWaiting : List Waiting → Option Waiting
  | [] => none
  | w :: l =>
    match firstWaiting l with
    | none => some w
    | some x => if x.kind < w.kind ∨ (x.kind = w.kind ∧ x.since < w.since) then some x else some w

/-- The first frame of the lowest kind in a list. -/
def lowestKind : List Waiting → Option Waiting
  | [] => none
  | w :: l =>
    match lowestKind l with
    | none => some w
    | some x => if x.kind < w.kind then some x else some w

/-- A source waits with its frame `w`: it has waited as long as the frame of that kind that has waited longest among its
ready frames `l` (R147, log entry 19). -/
def Waiting.ofSource (l : List Waiting) (w : Waiting) : Waiting :=
  { w with since := l.foldl (fun m x => if x.kind = w.kind then min m x.since else m) w.since }

/-- Session control's frame (R51): a returned note before its oldest waiting note. -/
def Session.waits (x : Session) : List Waiting :=
  match (x.returned.map fun h => h.waiting (.sessionReturned h)) ++ x.notes.map fun n => n.held.waiting (.sessionNote n) with
  | [] => []
  | w :: l => [w.ofSource l]

/-- RUNS and BOXES frames in the transmit queue (R177). -/
def Bus.replyFrames (b : Bus) : Nat := (b.queue.filter fun e => e.frame.isReply).length

/-- The next part of the entry in service (R177). -/
def AskEntry.nextPart (e : AskEntry) : Option Part := if e.serving then e.parts[e.placed]? else none

/-- The returned frames of the ask service that can be placed again: RUNS and BOXES frames within the limit of 2 (R177).
Frames of one kind stand in the order in which they were made, parts of one reply in part order (log entry 60). -/
def AskService.returnedReady (a : AskService) (room : Bool) : List Waiting :=
  (a.returned.filter fun h => room || !h.frame.isReply).map fun h => h.waiting (.askReturned h)

/-- The ask service's frames that were not placed before and count toward the limit of 2 (R177). -/
def AskService.replies (a : AskService) : List Waiting :=
  (a.table.filterMap fun e => e.nextPart.map fun p =>
      { kind := if e.words then kBoxes.toNat else kRuns.toNat, since := e.readySince, pick := .askPart e p }) ++
    a.refusals.map fun r => r.held.waiting (.refusal r)

/-- The pending status replies (R177, R181). -/
def AskService.statuses (a : AskService) : List Waiting :=
  a.status.map fun r => { kind := kStatusNote.toNat, since := r.since, pick := .status r }

/-- The frame with which a source waits, of its returned and its new frames: the lowest kind, within one kind a returned
frame before a new one, and of the new ones the one produced first (R177). DESIGN CHOICE (log entry 19): a new frame of a
lower kind goes before a returned frame of a higher kind. -/
def firstReady (returned fresh : List Waiting) : Option Waiting :=
  match lowestKind returned, firstWaiting fresh with
  | some x, some w => some (if w.kind < x.kind then w else x)
  | some x, none => some x
  | none, r => r

/-- The ask service's frame, within its limit (R177). -/
def State.askWaits (s : State) : List Waiting :=
  let room := decide (s.bus.replyFrames < 2)
  let returned := s.asks.returnedReady room
  let fresh := (if room then s.asks.replies else []) ++ s.asks.statuses
  ((firstReady returned fresh).map (Waiting.ofSource (returned ++ fresh))).toList

/-- The view engine's frames (R185, R189, R190). -/
def View.waits (v : View) : List Waiting :=
  (v.stops.map fun h => h.waiting (.viewStop h)) ++ (v.asks.map fun h => h.waiting (.viewAsk h)) ++
    v.note.toList.map fun h => h.waiting (.viewNote h)

/-- A feed's frame (R130). -/
def WQueue.waits (q : WQueue) (id : QueueId) : List Waiting :=
  if q.feedWaits then [{ kind := kWordsNote.toNat, since := q.feed.since, pick := .feed id }] else []

/-- The peer table's frames (R161, R163). -/
def PeerTable.waits (p : PeerTable) : List Waiting :=
  (p.noteReturned.toList.map fun h => h.waiting (.timeNote h)) ++
    p.rollDue.toList.map fun r => { kind := kRollCall.toNat, since := r.since, pick := .rollCall r }

/-- Every frame that waits for a place. -/
def State.waits (s : State) : List Waiting :=
  s.session.waits ++ s.askWaits ++ s.view.waits ++ s.words.qa.waits .a ++ s.words.qb.waits .b ++ s.peers.waits

/-- Room is there and a source waits (R147). -/
def State.placeDue (s : State) : Bool := s.bus.hasRoom && !s.waits.isEmpty

/-! ## Placing -/

/-- A held frame is placed. -/
def State.enqueueHeld (s : State) (h : Held) : State := s.enqueue h.origin h.frame

/-- Every held frame of a list but the one with this order number. -/
def dropHeld (l : List Held) (since : Nat) : List Held := l.filter fun h => h.since != since

/-- The next part of the entry in service is placed (R177); with the last part the entry leaves the table. -/
def State.placePart (s : State) (e : AskEntry) (p : Part) : State :=
  let s := s.enqueue (.askPart e.id) (p.frame e.asker)
  if p.last then (s.removeEntry e.id).placeFreed
  else
    { s with
      asks := { s.asks with
        table := s.asks.table.map fun x =>
          if x.id = e.id then { x with placed := x.placed + 1, readySince := s.order } else x }
      order := s.order + 1 }

/-- A status reply with `rest` still to be placed: gone when nothing is left (R181). -/
def restOfStatus (l : List StatusReply) (r : StatusReply) (rest : List TxFrame) : List StatusReply :=
  if rest.isEmpty then l.filter fun x => x.since != r.since
  else l.map fun x => if x.since = r.since then { x with composed := some rest } else x

/-- The next part of a status reply is placed; the first is composed with the whole reply (R181). -/
def State.placeStatus (s : State) (r : StatusReply) : State :=
  let (frames, s) := match r.composed with | some l => (l, s) | none => s.compose r
  match frames with
  | [] => { s with asks := { s.asks with status := s.asks.status.filter fun x => x.since != r.since } }
  | f :: rest =>
    let s := { s with asks := { s.asks with status := restOfStatus s.asks.status r rest } }
    s.enqueue .askStatus f

/-- The chosen source places its frame (R147). -/
def State.place (s : State) (p : Pick) : State :=
  match p with
  | .sessionReturned h =>
    State.enqueueHeld { s with session := { s.session with returned := s.session.returned.drop 1 } } h
  | .sessionNote n => State.enqueueHeld { s with session := { s.session with notes := s.session.notes.drop 1 } } n.held
  | .askReturned h =>
    State.enqueueHeld { s with asks := { s.asks with returned := s.asks.returned.filter fun x => x != h } } h
  | .askPart e p => s.placePart e p
  | .refusal r =>
    State.enqueueHeld
      { s with asks := { s.asks with refusals := s.asks.refusals.filter fun x => x.held.since != r.held.since } } r.held
  | .status r => s.placeStatus r
  | .viewAsk h =>
    let s := State.enqueueHeld { s with view := { s.view with asks := dropHeld s.view.asks h.since } } h
    match h.origin with
    | .viewAsk tag => s.askPlaced tag
    | _ => s
  | .viewStop h => State.enqueueHeld { s with view := { s.view with stops := dropHeld s.view.stops h.since } } h
  | .viewNote h => State.enqueueHeld { s with view := { s.view with note := none } } h
  | .feed q =>
    let wq := s.words.queue q
    let f := wq.nextNote q
    let s := { s with words := s.words.setQueue q (wq.notePlaced s.order) }
    s.enqueue (.feed q) f
  | .timeNote h => State.enqueueHeld { s with peers := { s.peers with noteReturned := none } } h
  | .rollCall r =>
    let f := s.buildRollCall r.answer
    State.enqueue { s with peers := { s.peers with rollDue := none } } .rollCall f

/-- PLACE_GRANTED (R147): one place goes to the waiting source with the lowest kind, longest wait first. -/
def execPlaceGranted (s : State) : Host.Outcome State Fault Refusal :=
  .next
    (if s.placeDue then
      match firstWaiting s.waits with
      | some w => s.place w.pick
      | none => s
    else s)

end Sys2Proof.Machine
end

