-- ==== Sys2Proof/Machine/Tick.lean ====
section
/-! DEFINITION. What happens while no command waits (log entry 1): the events of the part's own clock and timers that
are due, and one tick of the clock, with the bit timing of DATA (R138). -/

namespace Sys2Proof.Machine

/-! ## Bit timing (R138) -/

/-- Bit time in ticks (R138). -/
def bitTime (rate : BitVec 2) : Nat :=
  match rate.toNat with
  | 0 => 200
  | 1 => 80
  | 2 => 40
  | _ => 20

/-- Sample point after the start of a bit, 70% of the bit time (R138). -/
def samplePoint (rate : BitVec 2) : Nat := bitTime rate * 7 / 10

/-- The bits of the own frame on the wire (R139). -/
def Bus.wireBits (b : Bus) : Option (List Bool) := b.wireFrame.map fun e => frameBits b.own e.frame

/-- Whether DATA is driven dominant in the bit that starts now: the next bit of the own error flag (R145), of the own
frame (R139), or the receipt slot of a frame taken whole (R143). -/
def Bus.drives (b : Bus) : Bool :=
  if b.line != some .frame then false
  else if b.errorFound then decide (0 < b.flagBits)
  else
    match b.wireBits with
    | some l => !(l.getD b.rxBits.length true)
    | none => b.link.takesPart && scanFrame b.rxBits == .more true

/-- A bit starts: what is driven in it is settled (R138, R145). -/
def Bus.startBit (b : Bus) : Bus :=
  { b with dtxDominant := b.drives, flagBits := b.flagBits - 1 }

/-- DRX is registered (R138), and a start edge stamped (R158): the pair tells whether a bit starts at this tick. A
sender does not resynchronise while it drives a dominant bit. DESIGN CHOICE (log entry 56): an edge registered after the
sample point of the bit in progress starts the next bit, an earlier one restarts the bit in progress. -/
def Bus.register (b : Bus) (now : StationTime) : Bus × Bool :=
  let fall := b.drx && !b.drxPin
  let phase := (now - b.bitStart).toNat
  let resync := fall && !(b.dtxDominant && b.onWire.isSome)
  let rolled := decide (bitTime b.rate ≤ phase)
  let atStart := b.line == some .free || (b.line == some .frame && b.rxBits.isEmpty && !b.errorFound)
  ({ b with
      drx := b.drxPin
      bitStart := if resync || rolled then now else b.bitStart
      startStamp := if fall && atStart then some now else b.startStamp },
    rolled || (resync && decide (samplePoint b.rate < phase)))

/-! ## Sampling a bit (R141–R145, R153, R155) -/

/-- A receiver samples a bit of the frame in progress (R143). -/
def Bus.sampleFrame (b : Bus) (now : StationTime) (v : Bool) : Bus × List Instr :=
  let b := { b with rxBits := b.rxBits ++ [v] }
  match scanFrame b.rxBits with
  | .more _ => (b, [])
  | .error _ => (b, [.frameReceiveError])
  | .good content =>
    let (kind, f) := readContent (b.startStamp.getD now) content
    (b, [frameCommand kind f])

/-- A sender samples a bit of its own frame, whose bits are `l` (R142, R144). Where it sends recessive in the arbitration
field and samples dominant it has lost, and goes on as a receiver of the frame with that same bit, which may show a stuff
error (R140). DEDUCED (log entry 55): a dominant bit sampled recessive there is an own-frame error like any other. -/
def Bus.sampleOwn (b : Bus) (now : StationTime) (f : TxFrame) (l : List Bool) (v : Bool) : Bus × List Instr :=
  let i := b.rxBits.length
  let sent := l.getD i true
  if sent && !v && decide (i < arbitrationBits b.own f) then
    Bus.sampleFrame { b with onWire := none, dtxDominant := false } now v
  else
    let b := { b with rxBits := b.rxBits ++ [v] }
    if i + 6 = l.length then (b, [])
    else if sent != v then (b, [.frameSpoiled])
    else if i + 1 = l.length then
      (b, [if b.rxBits.getD (l.length - 6) true then .frameUnheard else .frameSent (b.startStamp.getD now)])
    else (b, [])

/-- A bit sampled by the line state (R141). -/
def Bus.sampleLine (b : Bus) (now : StationTime) (v : Bool) : Bus × List Instr :=
  match b.line with
  | some .wait =>
    if v then
      ({ b with recessiveRun := b.recessiveRun + 1 }, if b.recessiveRun + 1 = Config.freeBits then [.busFree] else [])
    else ({ b with recessiveRun := 0 }, [])
  | some .free => if v then (b, []) else ({ b with line := some .frame, rxBits := [false], errorFound := false }, [])
  | some .frame =>
    if b.errorFound then (b, if v && b.flagBits == 0 && !b.dtxDominant then [.errorSignallingEnd] else [])
    else
      match b.wireFrame with
      | some e => b.sampleOwn now e.frame (frameBits b.own e.frame) v
      | none => b.sampleFrame now v
  | some .brk | none => (b, [])

/-- A bit sampled while JOINING (R153). -/
def Bus.sampleJoining (b : Bus) (v : Bool) : Bus × List Instr :=
  if v then
    ({ b with joinCount := b.joinCount + 1 }, if b.joinCount + 1 = Config.joinBits then [.joinComplete] else [])
  else ({ b with joinCount := 0 }, [])

/-- A bit of level `v` is sampled (R138): the events it raises. -/
def Bus.sample (b : Bus) (now : StationTime) (v : Bool) : Bus × List Instr :=
  let b := { b with dominantRun := if v then 0 else b.dominantRun + 1 }
  if b.inBreak then (b, if v then [.breakEnd] else [])
  else if b.dominantRun = Config.breakBits then (b, [.busBreak])
  else if b.link = .joining then b.sampleJoining v
  else b.sampleLine now v

/-- The bus controller's tick (R138): DRX registered, a bit started, a bit sampled. -/
def Bus.tick (b : Bus) (now : StationTime) : Bus × List Instr :=
  let (b, starts) := b.register now
  let begins := starts && b.line == some .free && !b.queue.isEmpty && b.link.takesPart
  let b := if starts then b.startBit else b
  let (b, raised) := if (now - b.bitStart).toNat = samplePoint b.rate then b.sample now b.drx else (b, [])
  (b, (if begins then [.transmitStart true] else []) ++ raised)

/-! ## One tick -/

/-- The backlight's PWM (R197): a new level takes effect at the start of a period. -/
def View.tick (v : View) (panel : Bool) : View :=
  if panel then
    if v.blPhase + 1 < Config.backlightPeriod then { v with blPhase := v.blPhase + 1 }
    else { v with blPhase := 0, blLevel := v.window.backlight }
  else v

/-- One tick of the station clock (R157) with nothing due: every counter of ticks moves, and what DATA shows raises its
commands. -/
def State.tick (s : State) : State :=
  let s := s.deliverNotice
  let now := s.time + 1
  let (bus, raised) := s.bus.tick now
  { s with
    pending := raised
    time := now
    frontEnd := s.frontEnd.tick
    store := { s.store with writeWait := s.store.writeWait - 1 }
    mark := { s.mark with edgeThisTick := false }
    bus := bus
    peers := { s.peers with noteDue := cadenceToggles s.bus.cadence now }
    view := s.view.tick s.bus.panel }

/-- No command waits and nothing is due: a fire handed to the mark unit is taken (R67, R74), and otherwise a tick passes. -/
def State.idle (s : State) : State := if s.mark.handed.isSome then s.takeHanded else s.tick

/-! ## Events that are due -/

/-- A command, where it is due. -/
def onlyIf (b : Bool) (c : Instr) : List Instr := if b then [c] else []

/-- The commands of the part's own clock, timers and engines that are due at this tick. -/
def State.dueList (s : State) : List Instr :=
  (((List.finRange 16).filter (chanBit s.frontEnd.changing)).map .filteredLevelChange) ++
    onlyIf s.boundaryDue (.sampleBoundary (Config.boundarySchedule s.choice)) ++
    onlyIf s.writeDue .stagingWrite ++
    onlyIf s.stageTimerDue .stageTimerExpiry ++
    onlyIf s.pulseOver .markPulseEnd ++
    onlyIf s.edgeWaitOver .edgeWaitEnd ++
    onlyIf s.windowOver .windowClose ++
    onlyIf s.trigOutOver .trigOutEnd ++
    onlyIf (s.feedTimerDue .a) (.feedTimeout .a) ++
    onlyIf (s.feedTimerDue .b) (.feedTimeout .b) ++
    onlyIf s.peers.noteDue .timeNoteDue ++
    onlyIf s.placeDue .placeGranted ++
    onlyIf s.rejoinDue .rejoinTimerExpiry ++
    (((List.finRange 8).filter fun p => (s.peer p).timedOut s.time).map .presenceTimeout) ++
    onlyIf s.serviceDue .askServiceStart ++
    (((List.finRange 16).filter s.deadlineDue).map .fetchDeadline) ++
    (((List.finRange 16).filter s.reaskDue).map .reaskTimer) ++
    onlyIf s.pushOver .pushEnd

/-- One of several, by a free choice. -/
def pickDue (choice : Nat) : List Instr → Option Instr
  | [] => none
  | [c] => some c
  | c :: l => some ((c :: l).getD (Config.dueOrder choice % (l.length + 1)) c)

/-- The next due command, chosen freely where several are due (log entry 4), with the choice used up. -/
def State.nextDue (s : State) : Option (Instr × State) :=
  (pickDue s.choice s.dueList).map fun c => (c, { s with choice := s.choice + 1 })

end Sys2Proof.Machine
end

