-- ==== Sys2Proof/Machine/Dispatch.lean ====
section
/-! DEFINITION. Which meaning each command has. -/

namespace Sys2Proof.Machine

def exec (i : Instr) (s : State) : Host.Outcome State Fault Refusal :=
  match i with
  | .fullReset pins => Sys2Proof.Machine.execFullReset pins s
  | .filteredLevelChange ch => Sys2Proof.Machine.execFilteredLevelChange ch s
  | .sampleBoundary sched => Sys2Proof.Machine.execSampleBoundary sched s
  | .stagingWrite => Sys2Proof.Machine.execStagingWrite s
  | .stageTimerExpiry => Sys2Proof.Machine.execStageTimerExpiry s
  | .markEdge rising noticeLate => Sys2Proof.Machine.execMarkEdge rising noticeLate s
  | .markPulseEnd => Sys2Proof.Machine.execMarkPulseEnd s
  | .edgeWaitEnd => Sys2Proof.Machine.execEdgeWaitEnd s
  | .windowClose => Sys2Proof.Machine.execWindowClose s
  | .trigOutEnd => Sys2Proof.Machine.execTrigOutEnd s
  | .feedTimeout q => Sys2Proof.Machine.execFeedTimeout q s
  | .timeNoteDue => Sys2Proof.Machine.execTimeNoteDue s
  | .placeGranted => Sys2Proof.Machine.execPlaceGranted s
  | .busFree => Sys2Proof.Machine.execBusFree s
  | .transmitStart won => Sys2Proof.Machine.execTransmitStart won s
  | .frameSent stamp => Sys2Proof.Machine.execFrameSent stamp s
  | .frameUnheard => Sys2Proof.Machine.execFrameUnheard s
  | .frameSpoiled => Sys2Proof.Machine.execFrameSpoiled s
  | .frameReceiveError => Sys2Proof.Machine.execFrameReceiveError s
  | .rejoinTimerExpiry => Sys2Proof.Machine.execRejoinTimerExpiry s
  | .joinComplete => Sys2Proof.Machine.execJoinComplete s
  | .busBreak => Sys2Proof.Machine.execBusBreak s
  | .planPart f => Sys2Proof.Machine.execPlanPart f s
  | .arm f => Sys2Proof.Machine.execArm f s
  | .halt f => Sys2Proof.Machine.execHalt f s
  | .restart f => Sys2Proof.Machine.execRestart f s
  | .timeNote f => Sys2Proof.Machine.execTimeNote f s
  | .rollCall f => Sys2Proof.Machine.execRollCall f s
  | .markNote f => Sys2Proof.Machine.execMarkNote f s
  | .presenceTimeout p => Sys2Proof.Machine.execPresenceTimeout p s
  | .statusNote f => Sys2Proof.Machine.execStatusNote f s
  | .reduceAsk f => Sys2Proof.Machine.execReduceAsk f s
  | .wordsAsk f => Sys2Proof.Machine.execWordsAsk f s
  | .statusAsk f => Sys2Proof.Machine.execStatusAsk f s
  | .stop f => Sys2Proof.Machine.execStop f s
  | .wordsNote f => Sys2Proof.Machine.execWordsNote f s
  | .askServiceStart => Sys2Proof.Machine.execAskServiceStart s
  | .viewPart f => Sys2Proof.Machine.execViewPart f s
  | .viewGo f => Sys2Proof.Machine.execViewGo f s
  | .runs f => Sys2Proof.Machine.execRuns f s
  | .boxes f => Sys2Proof.Machine.execBoxes f s
  | .fetchDeadline lane => Sys2Proof.Machine.execFetchDeadline lane s
  | .reaskTimer lane => Sys2Proof.Machine.execReaskTimer lane s
  | .pushEnd => Sys2Proof.Machine.execPushEnd s
  | .comparatorStateChange ch microvolts => Sys2Proof.Machine.execComparatorStateChange ch microvolts s
  | .errorSignallingEnd => Sys2Proof.Machine.execErrorSignallingEnd s
  | .breakEnd => Sys2Proof.Machine.execBreakEnd s

end Sys2Proof.Machine
end

