-- ==== Sys2Proof/Safety.lean ====
section
/-! DEFINITION. What a safe run is, in the terms the statements use: a run that no step stops, and the invariants of the
machine, each a rule of the manual about every state the machine passes through. Also the blocks of the part (1.3 of
00_scope.md), so that a statement can say which of them a command leaves alone. -/

namespace Sys2Proof.Machine

/-! ## Runs -/

/-- A step answers a next state. -/
def Runs (s : State) : Prop := ∃ t, step s = .next t

/-- `Inv` holds after every step from a state in which it holds. -/
def KeptByStep (Inv : State → Prop) : Prop := ∀ s t, Inv s → step s = .next t → Inv t

/-- A frame reaches a block of this station: a good frame can be received now, and it is broadcast or addressed to this
station (R143). -/
def State.Takes (s : State) (f : RxFrame) : Prop := s.canReceive = true ∧ s.isFor f = true

/-! ## Blocks -/

/-- The blocks of the part, each with what the state holds of it (1.3 of 00_scope.md). -/
inductive Block where
  | clock
  | pins
  | frontEnd
  | store
  | session
  | sequencer
  | mark
  | decoders
  | words
  | bus
  | peers
  | asks
  | view
  deriving DecidableEq, Repr

/-- Two states hold the same in a block. -/
def State.sameIn (s t : State) : Block → Prop
  | .clock => t.time = s.time
  | .pins => t.pins = s.pins
  | .frontEnd => t.frontEnd = s.frontEnd
  | .store => t.store = s.store
  | .session => t.session = s.session
  | .sequencer => t.sequencer = s.sequencer
  | .mark => t.mark = s.mark
  | .decoders => t.decoders = s.decoders
  | .words => t.words = s.words
  | .bus => t.bus = s.bus
  | .peers => t.peers = s.peers
  | .asks => t.asks = s.asks
  | .view => t.view = s.view

/-- The blocks a command may change; the others it leaves as they are, in every state. What each rule gives a command to
do in a block stands in the statements about that command. -/
def mayChange : Instr → List Block
  | .fullReset _ | .restart _ =>
    [.clock, .pins, .frontEnd, .store, .session, .sequencer, .mark, .decoders, .words, .bus, .peers, .asks, .view]
  | .filteredLevelChange _ | .comparatorStateChange _ _ => [.frontEnd]
  | .sampleBoundary _ => [.frontEnd, .store, .session, .sequencer, .mark, .decoders, .words, .bus, .asks, .view]
  | .stagingWrite => [.store, .session, .words, .bus, .asks, .view]
  | .markEdge _ _ => [.store, .session, .sequencer, .mark, .words, .bus, .peers, .asks, .view]
  | .markPulseEnd | .trigOutEnd => [.mark]
  | .stageTimerExpiry | .edgeWaitEnd | .windowClose => [.sequencer, .mark]
  | .feedTimeout _ => [.words]
  | .timeNoteDue | .frameSent _ | .frameUnheard | .frameSpoiled => [.session, .words, .bus, .peers, .asks, .view]
  | .placeGranted => [.frontEnd, .store, .session, .mark, .decoders, .words, .bus, .peers, .asks, .view]
  | .busFree | .transmitStart _ | .errorSignallingEnd | .breakEnd => [.bus]
  | .frameReceiveError | .rollCall _ | .presenceTimeout _ | .statusNote _ | .stop _ | .viewPart _ | .viewGo _ =>
    [.bus, .peers, .asks, .view]
  | .rejoinTimerExpiry | .joinComplete | .timeNote _ | .wordsNote _ => [.bus, .peers]
  | .busBreak | .arm _ =>
    [.frontEnd, .store, .session, .sequencer, .mark, .decoders, .words, .bus, .peers, .asks, .view]
  | .planPart _ => [.frontEnd, .session, .bus, .peers]
  | .halt _ => [.frontEnd, .store, .session, .sequencer, .mark, .decoders, .bus, .peers, .asks, .view]
  | .markNote _ => [.store, .bus, .peers]
  | .reduceAsk _ | .wordsAsk _ | .statusAsk _ => [.bus, .peers, .asks]
  | .askServiceStart => [.asks, .view]
  | .runs _ | .boxes _ => [.bus, .peers, .view]
  | .fetchDeadline _ | .reaskTimer _ | .pushEnd => [.view]

/-- The commands that write the record memory: a staging write (R23), and the clearing by an accepted ARM (R34) and by a
full reset (R35). -/
def writesRecords : Instr → Bool
  | .stagingWrite | .arm _ | .restart _ | .fullReset _ => true
  | _ => false

/-- The commands that write the active plan: an accepted ARM (R44) and a full reset (R42). -/
def writesActive : Instr → Bool
  | .arm _ | .restart _ | .fullReset _ => true
  | _ => false

/-- The commands that write the draft plan: PLAN_PART (R40) and a full reset (R42). -/
def writesDraft : Instr → Bool
  | .planPart _ | .restart _ | .fullReset _ => true
  | _ => false

/-- The commands that can end or stop a push: its own end, and a full reset (R197). -/
def endsPush : Instr → Bool
  | .pushEnd | .restart _ | .fullReset _ => true
  | _ => false

/-! ## Values -/

/-- A held value is the written one kept within `lo` to `hi`: the nearest end where the written value lies outside
(R41). -/
def ClampedTo (lo hi written held : Nat) : Prop :=
  (written < lo → held = lo) ∧ (hi < written → held = hi) ∧ (lo ≤ written → written ≤ hi → held = written)

/-! ## Invariants -/

/-- The record memory and the frame buffer keep their canonical forms (R15, R197). -/
def State.MemoryInv (s : State) : Prop :=
  Store.memWf s.store.mem = true ∧ View.bufferWf s.view.buffer = true

/-- The transmit queue holds at most 8 frames, and the frame on the wire is one of them (R146). -/
def State.QueueInv (s : State) : Prop :=
  s.bus.queue.length ≤ Config.txQueueFrames ∧
    ∀ id, s.bus.onWire = some id → ∃ e ∈ s.bus.queue, e.id = id

/-- In NORMAL and CAUTIOUS the link state is the one the trouble score sets (R152), the score is 0 while JOINING (R151,
R153) and at most 255, and the rejoin timer runs in DETACHED and in no other state (R154). -/
def State.LinkInv (s : State) : Prop :=
  (s.bus.link.takesPart = true → s.bus.link = linkOfScore s.bus.score) ∧
    (s.bus.link = .joining → s.bus.score = 0) ∧
    s.bus.score ≤ 255 ∧
    (s.bus.rejoin.isSome = true ↔ s.bus.link = .detached)

/-- An absent bank's channels are LOW at every boundary, never in a glitch set and never in the activity mask (R2); the
next boundary is a multiple of the sample period in force (R6). -/
def State.SamplingInv (s : State) : Prop :=
  (∀ c, s.frontEnd.chanPresent c = false →
    chanBit s.frontEnd.filtered c = false ∧ chanBit s.frontEnd.changing c = false ∧
      vget s.frontEnd.changes c = 0 ∧ chanBit s.frontEnd.lastLevels c = false ∧
      chanBit s.frontEnd.activity c = false) ∧
    s.frontEnd.nextBoundary.toNat % period s.frontEnd.rate = 0

/-- The store has a current segment in ARMED and TRIGGERED and in no other session state; it is segment k, it is FILLING
in ARMED and in POST in TRIGGERED, and it has no close time and is not ending (R37, R38). Outside a running session the
sequencer is STOPPED (R74), the mark unit OFF (R92) and the decoder units stopped (R97); in one the units run. -/
def State.SessionInv (s : State) : Prop :=
  match s.store.current with
  | some c =>
    s.session.k = some c.seg ∧ s.store.layout.isSome = true ∧ s.session.active.isSome = true ∧
      (s.header c.seg).ending = none ∧ (s.header c.seg).close = none ∧
      ((s.session.state = .armed ∧ (s.header c.seg).state = .filling) ∨
        (s.session.state = .triggered ∧ (s.header c.seg).state = .post)) ∧
      s.decoders.running = true
  | none =>
    s.session.state.runs = false ∧ s.sequencer.state = .stopped ∧ s.mark.state = .off ∧ s.decoders.running = false

/-- A segment never holds more records than the capacity of its session's segments (R33). -/
def State.CapacityInv (s : State) : Prop :=
  ∀ l, s.store.layout = some l → ∀ k, (s.header k).count ≤ l.capacity

/-- Each word queue holds at most its capacity (R121), and its fed words are among those it holds (R128). -/
def State.WordsInv (s : State) : Prop :=
  ∀ q, (s.words.queue q).words.length ≤ (s.words.queue q).capacity ∧
    (s.words.queue q).fed ≤ (s.words.queue q).words.length

/-- The words the filter took and the places they went stay in balance, modulo 2^32 (R134). -/
def State.WordBalance (s : State) : Prop :=
  s.words.completed = s.words.discarded + s.words.lost + s.words.latched + s.words.trimmedAtCompletion +
      s.words.qa.enqueued + s.words.qb.enqueued ∧
    ∀ q, (s.words.queue q).enqueued =
      BitVec.ofNat 32 (s.words.queue q).words.length + (s.words.queue q).overwritten + (s.words.queue q).trimmed

/-- The ask table holds at most 8 entries, at most 4 of them the view engine's own, and never two from the bus with the
same asker and tag (R170); each has a name of its own, and at most one is in service (R171). -/
def State.AskInv (s : State) : Prop :=
  s.asks.table.length ≤ Config.askEntries ∧ (s.asks.table.filter (·.own)).length ≤ 4 ∧
    (s.asks.table.filter (·.serving)).length ≤ 1 ∧
    (s.asks.table.map (·.id)).Nodup ∧ (∀ e ∈ s.asks.table, e.id < s.order) ∧
    ∀ e ∈ s.asks.table, ∀ x ∈ s.asks.table,
      e.own = false → x.own = false → e.asker = x.asker → e.tag = x.tag → e = x

/-- Every waiting frame is of its originator's kind: each frame in the queue has a name of its own (R146), a feed's frames
are WORDS_NOTEs (R130), the parts of an ask's reply are of the ask's kind (R177), and what is left of a status reply is one
STATUS_NOTE or more (R181). -/
def State.KindInv (s : State) : Prop :=
  (s.bus.queue.map (·.id)).Nodup ∧ (∀ e ∈ s.bus.queue, e.id < s.order) ∧
    (∀ e ∈ s.bus.queue, ∀ q, e.origin = .feed q → e.frame.kind = kWordsNote) ∧
    (∀ q, ∀ f ∈ (s.words.queue q).feed.returned, f.kind = kWordsNote) ∧
    (∀ e ∈ s.asks.table, ∀ p ∈ e.parts, p.isBoxes = e.words) ∧
    ∀ r ∈ s.asks.status, ∀ l, r.composed = some l → l ≠ [] ∧ ∀ f ∈ l, f.kind = kStatusNote

/-- Every peer's skew is in -8,192 to 8,192, and 0 while it is not valid (R166). -/
def State.SkewInv (s : State) : Prop :=
  ∀ p, -8192 ≤ (s.peer p).skew ∧ (s.peer p).skew ≤ 8192 ∧ ((s.peer p).skewValid = false → (s.peer p).skew = 0)

/-- The mark edge list holds at most four edges (R79), and the missed window count stops at 65,535 (R85, R89). -/
def State.MarkInv (s : State) : Prop := s.mark.edges.length ≤ 4 ∧ s.mark.missed ≤ 65535

end Sys2Proof.Machine
end

