-- ==== Sys2Proof/WellFormed.lean ====
section
/-! DEFINITION. The checks a command meets when it stands for something that can reach the part: a good frame has a
payload of at most 60 bytes (R139), and VIEW_GO is the VIEW_PART whose one payload byte is the identity 5 (R186). -/

namespace Sys2Proof

/-- A frame's length field holds 0 to 60; 61 to 63 is a length error and no good frame (R139, R143). -/
def RxFrame.wellFormed (f : RxFrame) : Bool := f.payload.length ≤ 60

/-- The payload of a VIEW_PART GO: the identity 5 and nothing after it (R186, R203). -/
def RxFrame.isGo (f : RxFrame) : Bool := f.payload == [5]

/-- A command is well formed when the frame it carries, if any, is one the bus can deliver under its row. -/
def Instr.wellFormed : Instr → Bool
  | .planPart f | .arm f | .halt f | .restart f | .timeNote f | .rollCall f | .markNote f | .statusNote f
  | .reduceAsk f | .wordsAsk f | .statusAsk f | .stop f | .wordsNote f | .runs f | .boxes f => f.wellFormed
  | .viewPart f => f.wellFormed && !f.isGo
  | .viewGo f => f.wellFormed && f.isGo
  | .fullReset _ | .filteredLevelChange _ | .sampleBoundary _ | .stagingWrite | .stageTimerExpiry | .markEdge _ _
  | .markPulseEnd | .edgeWaitEnd | .windowClose | .trigOutEnd | .feedTimeout _ | .timeNoteDue | .placeGranted
  | .busFree | .transmitStart _ | .frameSent _ | .frameUnheard | .frameSpoiled | .frameReceiveError
  | .rejoinTimerExpiry | .joinComplete | .busBreak | .presenceTimeout _ | .askServiceStart | .fetchDeadline _
  | .reaskTimer _ | .pushEnd | .comparatorStateChange _ _ | .errorSignallingEnd | .breakEnd => true

/-- The frame a command is the good receipt of, if it is one. -/
def Instr.frame? : Instr → Option RxFrame
  | .planPart f | .arm f | .halt f | .restart f | .timeNote f | .rollCall f | .markNote f | .statusNote f
  | .reduceAsk f | .wordsAsk f | .statusAsk f | .stop f | .wordsNote f | .viewPart f | .viewGo f | .runs f | .boxes f =>
    some f
  | .fullReset _ | .filteredLevelChange _ | .sampleBoundary _ | .stagingWrite | .stageTimerExpiry | .markEdge _ _
  | .markPulseEnd | .edgeWaitEnd | .windowClose | .trigOutEnd | .feedTimeout _ | .timeNoteDue | .placeGranted
  | .busFree | .transmitStart _ | .frameSent _ | .frameUnheard | .frameSpoiled | .frameReceiveError
  | .rejoinTimerExpiry | .joinComplete | .busBreak | .presenceTimeout _ | .askServiceStart | .fetchDeadline _
  | .reaskTimer _ | .pushEnd | .comparatorStateChange _ _ | .errorSignallingEnd | .breakEnd => none

end Sys2Proof
end

