-- ==== Sys2Proof/Certificates/Slice0/Obligations.lean ====
section
/-! DEFINITION. The statements for the provers. Each docstring names the rules of spec/ that a statement formalises; where
a clause rests on a choice of the model, it names the log entry. Every statement about a command says that the command
answers a next state, and which. -/

section

open Sys2Proof Sys2Proof.Machine

/-! ## The machine -/

/-- A step takes the command at the front of the queue and runs it on the state with the rest of the queue. The queue is
the model's (log entry 1). -/
def Obligations.StepRunsFrontCommand : Prop :=
  ∀ (c : Instr) (rest : List Instr) (s : State), s.pending = c :: rest → step s = exec c { s with pending := rest }

/-- On an empty queue a step runs one command that the part's own clock has made due; where none is due, the mark unit takes
the fire that was handed to it (R67, log entry 26), and where it holds none one tick passes. No step stops (log entries 1
and 4). -/
def Obligations.IdleStepIsDueOrTick : Prop :=
  (∀ s : State, Runs s) ∧
    ∀ s : State, s.pending = [] →
      (s.dueList = [] ∧ s.mark.handed = none ∧ step s = .next s.tick) ∨
      (∃ f, s.dueList = [] ∧ s.mark.handed = some f ∧
        step s = .next (State.takeFire { s with mark := { s.mark with handed := none } } f)) ∨
        ∃ c ∈ s.dueList, step s = exec c { s with choice := s.choice + 1 }

/-- Every command answers a next state, leaves the queue of waiting commands as it is, and leaves unchanged every block
of the part that `mayChange` does not give it. Four choices of the model are in it: a command whose event does not fall
due, or whose cause the state does not admit, answers with the state unchanged (log entries 11 and 12); a frame is taken in
every line state (log entry 13); and a STAGE_TIMER_EXPIRY leaves its fire with the mark unit, so that the store, the session
and the bus stay as they are, and what the fire does there comes when it is taken (log entry 26). -/
def Obligations.CommandsKeepOtherBlocks : Prop :=
  ∀ (c : Instr) (s : State), ∃ t, exec c s = .next t ∧ t.pending = s.pending ∧
    ∀ b, b ∉ mayChange c → s.sameIn t b

/-- The record memory changes only by a staging write (R23), an accepted ARM (R34) and a full reset (R35): under every
other command every place reads as before. The active plan changes only by an ARM and a full reset, the draft only by a
PLAN_PART and a full reset (R40, R42). -/
def Obligations.OnlyTheirCommandsWrite : Prop :=
  ∀ (c : Instr) (s t : State), exec c s = .next t →
    (writesRecords c = false → ∀ place, t.store.read place = s.store.read place) ∧
      (writesActive c = false → t.session.active = s.session.active) ∧
      (writesDraft c = false → t.session.draft = s.session.draft)

/-- A push runs to its end whatever arrives meanwhile (R197): while one is in progress, no command but its own end and a
full reset changes when it began or any byte of the frame buffer it sends. -/
def Obligations.PushRunsToItsEnd : Prop :=
  ∀ (c : Instr) (s t : State), s.view.push.isSome = true → endsPush c = false → exec c s = .next t →
    t.view.push = s.view.push ∧ ∀ a, t.view.readByte a = s.view.readByte a

/-! ## Invariants that every step keeps -/

/-- The record memory and the frame buffer keep their canonical forms, and no segment holds more records than its
capacity (R15, R33). -/
def Obligations.StoreInvariantKept : Prop :=
  KeptByStep fun s => s.MemoryInv ∧ s.CapacityInv

/-- The transmit queue holds at most 8 frames, the frame on the wire among them; in NORMAL and CAUTIOUS the link state is
the one the score sets, and the rejoin timer runs in DETACHED alone (R146, R151–R154). -/
def Obligations.BusInvariantKept : Prop :=
  KeptByStep fun s => s.QueueInv ∧ s.LinkInv

/-- The channels of an absent bank stay LOW, out of the glitch set and out of the activity mask, and the next boundary is
a multiple of the sample period (R2, R6). -/
def Obligations.SamplingInvariantKept : Prop :=
  KeptByStep State.SamplingInv

/-- The store has a current segment exactly in ARMED and TRIGGERED; it is segment k, FILLING in ARMED and in POST in
TRIGGERED; outside a running session the sequencer is STOPPED, the mark unit OFF and the decoder units stopped (R37, R38,
R74, R92, R97). -/
def Obligations.SessionInvariantKept : Prop :=
  KeptByStep State.SessionInv

/-- No queue holds more words than its capacity, the fed words are among those held (R121, R128), and the word counters
stay in balance modulo 2^32, at every moment (R134). -/
def Obligations.WordBalanceKept : Prop :=
  KeptByStep (fun s => s.WordsInv ∧ s.WordBalance) ∧
    ∀ (w : Words) (p : Plan) (own : Station) (s : State), s.words = w.arm p own → s.WordsInv ∧ s.WordBalance

/-- The ask table holds at most 8 entries, at most 4 of them own, at most one in service, and never two from the bus with
the same asker and tag (R170, R171). Every frame that waits is of its originator's kind: the parts of an ask's reply of the
ask's kind (R177), a feed's frames WORDS_NOTEs (R130), a status reply's STATUS_NOTEs (R181). -/
def Obligations.AskTableInvariantKept : Prop :=
  KeptByStep fun s => s.AskInv ∧ s.KindInv

/-- Every peer's skew stays in -8,192 to 8,192, and 0 while it is not valid (R166); the mark edge list holds at most four
edges, and the missed window count stops at 65,535 (R79, R85). -/
def Obligations.SkewAndMarkInvariantKept : Prop :=
  KeptByStep fun s => s.SkewInv ∧ s.MarkInv

/-- Right after reset every one of the invariants holds. -/
def Obligations.InvariantsHoldAtReset : Prop :=
  State.reset.MemoryInv ∧ State.reset.CapacityInv ∧ State.reset.QueueInv ∧ State.reset.LinkInv ∧
    State.reset.SamplingInv ∧ State.reset.SessionInv ∧ State.reset.WordsInv ∧ State.reset.WordBalance ∧
    State.reset.AskInv ∧ State.reset.KindInv ∧ State.reset.SkewInv ∧ State.reset.MarkInv

/-! ## Reset -/

/-- A full reset puts every block in the state its chapter lists, row by row, with the straps and bank sense pins
sampled at that moment (R1, R13, R35, R37, R42, R76, R95, R116, R136, R153, R156, R169, R184, R198). Three things here
are the model's own: the fields of the 24 disabled filter entries of the default plan that R42 does not list (log entry
54), the fire still to be taken `handed` (log entry 26) and the offers that wait `offers` (log entry 52), which a full
reset empties. -/
def Obligations.FullResetClearsEveryBlock : Prop :=
  ∀ (pins : Straps) (s : State), ∃ t, exec (.fullReset pins) s = .next t ∧
    t.time = 0 ∧
    (t.frontEnd.present = ⟨#[pins.bs0, pins.bs1], rfl⟩ ∧ t.frontEnd.rate = 2 ∧
      (∀ b, vget t.frontEnd.threshold b = 80 ∧ vget t.frontEnd.hysteresis b = 1 ∧ vget t.frontEnd.deglitch b = 0) ∧
      t.frontEnd.filtered = 0 ∧ (∀ c, vget t.frontEnd.hold c = 0 ∧ vget t.frontEnd.changes c = 0) ∧
      t.frontEnd.lastLevels = 0 ∧ t.frontEnd.activity = 0 ∧ t.frontEnd.nextBoundary = 4 ∧
      t.frontEnd.comparator = s.frontEnd.comparator) ∧
    (t.store.layout = none ∧ (∀ k, t.header k = SegHeader.empty) ∧ (∀ p, t.store.read p = none) ∧ t.store.fifo = [] ∧
      t.store.reference = none ∧ t.store.current = none ∧ t.store.offers = [] ∧ t.store.mergedSeen = false) ∧
    (let h := SegHeader.empty
     h.state = .empty ∧ h.count = 0 ∧ h.trigTime = none ∧ h.cause = none ∧ h.causeTime = none ∧
       h.postRemaining = none ∧ h.deadline = none ∧ h.close = none ∧ h.merged = 0 ∧ h.lateMarks = 0 ∧ h.lateFires = 0) ∧
    (let d := t.session.draft
     d.general = {
       rate := 2, segCode := 0, p := 4, postTime := 0, prefill := false, role := .solo, sense := .any, hold := 16
       threshold := Vector.replicate 2 80, hysteresis := Vector.replicate 2 1, deglitch := Vector.replicate 2 0
       stageCount := 1 } ∧
     (∀ n, vget d.stages n = {
       cond := .edge 0xFFFF .either, n := 1, timeout := 0, satisfiedFires := true, timeoutFires := false }) ∧
     (∀ u, vget d.decoders u = { cfg := .off, dest := .queue .a }) ∧ (∀ i, (vget d.filters i).enabled = false) ∧
     ∀ q ∈ [d.qa, d.qb], q = {
       capacity := 512, overwrite := false
       feed := { enabled := false, target := none, levelCode := 1, timeout := 16 } }) ∧
    (t.session.state = .idle ∧ t.session.k = none ∧ t.session.active = none ∧ t.session.draft = Plan.default ∧
      t.session.notes = [] ∧ t.session.returned = []) ∧
    (t.sequencer.state = .stopped ∧ t.sequencer.stages = none ∧ t.sequencer.stageCount = 0 ∧
      t.sequencer.stage = 0 ∧ t.sequencer.count = 0 ∧ t.sequencer.timer = none ∧ t.sequencer.patternFlag = false ∧
      t.sequencer.levels = 0 ∧ ∀ c, vget t.sequencer.lastChange c = none) ∧
    (t.mark.state = .off ∧ t.mark.cfg = none ∧ t.mark.handed = none ∧ t.mark.fire = none ∧ t.mark.pulseEnd = none ∧
      t.mark.waitEnd = none ∧ t.mark.closing = none ∧ t.mark.heldOpen = false ∧ t.mark.edges = [] ∧ t.mark.missed = 0 ∧
      t.mark.missedSeen = false ∧ t.mtxLow = false ∧ t.trigOut = false) ∧
    (t.decoders.running = false ∧ t.decoders.undersampledSeen = false ∧
      ∀ u, (vget t.decoders.units u).cfg = none ∧ (vget t.decoders.units u).assembly = .fresh ∧
        (vget t.decoders.units u).levels = 0) ∧
    (t.words.filters = none ∧ t.words.feedMissedSeen = false ∧ t.words.latchOverrunSeen = false ∧
      t.words.completed = 0 ∧ t.words.discarded = 0 ∧ t.words.lost = 0 ∧ t.words.latched = 0 ∧
      t.words.trimmedAtCompletion = 0 ∧
      (∀ n, vget t.words.latches n = { word := none, isNew := false, overrun := 0 }) ∧
      ∀ q, (t.words.queue q).words = [] ∧ (t.words.queue q).fed = 0 ∧ (t.words.queue q).capacity = 0 ∧
        (t.words.queue q).enqueued = 0 ∧ (t.words.queue q).overwritten = 0 ∧ (t.words.queue q).trimmed = 0 ∧
        (t.words.queue q).feedMissed = 0 ∧ (t.words.queue q).feed.cfg = none ∧ (t.words.queue q).feed.state = .off ∧
        (t.words.queue q).feed.timer = none ∧ (t.words.queue q).feed.returned = [] ∧ (t.words.queue q).feed.seq = 0) ∧
    (t.bus.own = pins.st ∧ t.bus.rate = pins.rt ∧ t.bus.cadence = pins.cd ∧ t.bus.panel = pins.pnl ∧
      t.bus.link = .joining ∧ t.bus.joinCount = 0 ∧ t.bus.line = none ∧ t.bus.score = 0 ∧ t.bus.queue = [] ∧
      t.bus.rejoin = none ∧ t.bus.dtxDominant = false ∧ t.bus.bitStart = 0 ∧ t.bus.rxBits = [] ∧
      t.bus.startStamp = none) ∧
    ((∀ p, t.peer p = {
        present := false, timer := none, details := none, chain := none, current := none, base := none, skew := 0
        skewValid := false, drift := false, lastFire := none }) ∧
      t.peers.nextSeq = 0 ∧ t.peers.lastSent = none ∧ t.peers.rollDue = none) ∧
    t.asks = { table := [], refusals := [], status := [], returned := [] } ∧
    ((∀ n, vget t.view.lanes n = { used := false, decoder := false, station := 0, index := 0
                                   label := Vector.replicate 6 0x20 } ∧ vget t.view.fetch n = none) ∧
      t.view.window = { seg := 0, zero := 0, offset := 0, w := 1000, cursorA := none, cursorB := none, backlight := 8 } ∧
      t.view.generation = 0 ∧ t.view.pass = none ∧ t.view.note = none ∧ (∀ a, t.view.readByte a = 0) ∧
      t.view.push = (if pins.pnl then some 0 else none) ∧ (pins.pnl = true → t.view.blLevel = 8))

/-- A RESTART addressed to this station with the broadcast bit clear does what the RESET pin does; one that is broadcast,
or whose payload is not empty, is only received (R50, R199). That the reset samples the strap and bank sense levels held in
`s.pins`, those of the last FULL_RESET, is the model's choice (log entry 9). -/
def Obligations.RestartActsAsFullReset : Prop :=
  ∀ (f : RxFrame) (s : State), s.Takes f →
    (f.bcast = false ∧ f.payload = [] → exec (.restart f) s = exec (.fullReset s.pins) s) ∧
      (f.bcast = true ∨ f.payload ≠ [] → exec (.restart f) s = .next (s.takeGood f))

/-! ## Front end -/

/-- A probe input that moves changes its own channel's comparator alone: in LOW it goes HIGH exactly where the input is
above the rising point V_T + h/2, in HIGH it goes LOW exactly where it is below the falling point V_T - h/2 (R3). The
threshold code counts 20 mV. Voltages in microvolts are the model's (log entry 7). -/
def Obligations.ComparatorFollowsInput : Prop :=
  ∀ (ch : Chan) (uv : Int) (s : State), ∃ t, exec (.comparatorStateChange ch uv) s = .next t ∧
    t = { s with frontEnd := { s.frontEnd with
            probe := vset s.frontEnd.probe ch uv
            comparator := t.frontEnd.comparator } } ∧
    (∀ c, c ≠ ch → chanBit t.frontEnd.comparator c = chanBit s.frontEnd.comparator c) ∧
    (chanBit s.frontEnd.comparator ch = false →
      (chanBit t.frontEnd.comparator ch = true ↔
        (vget s.frontEnd.switchThreshold (bank ch)).toNat * 20000 +
          halfHysteresis (vget s.frontEnd.switchHysteresis (bank ch)) < uv)) ∧
    (chanBit s.frontEnd.comparator ch = true →
      (chanBit t.frontEnd.comparator ch = false ↔
        uv < (vget s.frontEnd.switchThreshold (bank ch)).toNat * 20000 -
          halfHysteresis (vget s.frontEnd.switchHysteresis (bank ch))))

/-- The three cases of the deglitch filter (R5), for a channel of a present bank at one tick: the registered value equals
the filtered level and the hold count becomes 0; it differs with the hold count below N and the hold count goes up by 1;
it differs with the hold count at or above N, and then FILTERED_LEVEL_CHANGE is due, which gives the filtered level the
registered value, sets the hold count to 0, raises the change count (R8) and touches no other channel. -/
def Obligations.DeglitchFilter : Prop :=
  (∀ (s : State) (c : Chan), s.frontEnd.chanPresent c = true →
    let t := s.tick.frontEnd
    let n := (s.frontEnd.deglitchOf c).toNat
    let h := (vget s.frontEnd.hold c).toNat
    (chanBit t.registered c = chanBit s.frontEnd.filtered c →
      vget t.hold c = 0 ∧ chanBit t.changing c = false) ∧
    (chanBit t.registered c ≠ chanBit s.frontEnd.filtered c → h < n →
      (vget t.hold c).toNat = h + 1 ∧ chanBit t.changing c = false) ∧
    (chanBit t.registered c ≠ chanBit s.frontEnd.filtered c → n ≤ h → chanBit t.changing c = true)) ∧
  ∀ (s : State) (ch : Chan), chanBit s.frontEnd.changing ch = true →
    ∃ t, exec (.filteredLevelChange ch) s = .next t ∧
      t = { s with frontEnd := { s.frontEnd with
              filtered := t.frontEnd.filtered, hold := t.frontEnd.hold
              changing := t.frontEnd.changing, changes := t.frontEnd.changes } } ∧
      chanBit t.frontEnd.filtered ch = chanBit s.frontEnd.registered ch ∧
      vget t.frontEnd.hold ch = 0 ∧
      (vget t.frontEnd.changes ch).val = min 2 ((vget s.frontEnd.changes ch).val + 1) ∧
      chanBit t.frontEnd.changing ch = false ∧
      ∀ c, c ≠ ch →
        chanBit t.frontEnd.filtered c = chanBit s.frontEnd.filtered c ∧
          vget t.frontEnd.hold c = vget s.frontEnd.hold c ∧
          vget t.frontEnd.changes c = vget s.frontEnd.changes c ∧
          chanBit t.frontEnd.changing c = chanBit s.frontEnd.changing c

/-- A sample boundary, whatever the order in which the consumers take its element (R6–R10, R57): the level set is the
filtered levels, a channel joins the activity mask where its sampled level moved or its change count is 2, every change
count returns to 0, and the sequencer's copy and last-change times follow the element. The next boundary is one period
later where no segment is current and in a session that goes on; where the session ends at this boundary the front end
loads the draft, and the next boundary is the first multiple of its period after (R6, R12). Where the order given is
empty, the store takes the element first, then the sequencer, then the units in turn: the store and the session are as
the store leaves them, each unit is as its own element leaves it, and where no unit completes a word, or one unit one
word, the sequencer, the mark unit and the word memory are as the element, the filter and the cue of that word leave
them (R9, R98, R99, R119, R120). The order is open (log entry 5), and a fire formed here is taken by the mark unit
later; one formed before this boundary is taken before the store takes the element, so that the boundary is as it is
after that (R26, R81, log entry 26). A trigger notice still on its way reaches the sequencer when the boundary is over,
which is the model's order (log entry 8). What a unit's element and the cue of a word are is said in
DecoderUnitsCompleteWords and FirstMatchingEntryRoutes. -/
def Obligations.SampleBoundaryDelivers : Prop :=
  (∀ (sched : List Consumer) (s : State), s.time = s.frontEnd.nextBoundary → s.frontEnd.changing = 0 →
    ∃ t, exec (.sampleBoundary sched) s = .next t ∧
      t.frontEnd.lastBoundary = some s.time ∧
      t.frontEnd.lastLevels = s.frontEnd.filtered ∧ t.frontEnd.filtered = s.frontEnd.filtered ∧
      (∀ c, vget t.frontEnd.changes c = 0) ∧
      (∀ c, chanBit t.frontEnd.activity c =
        (chanBit s.frontEnd.activity c || chanBit s.frontEnd.filtered c != chanBit s.frontEnd.lastLevels c ||
          vget s.frontEnd.changes c == 2)) ∧
      (s.store.current = none ∨ t.session.state.runs = true →
        t.frontEnd.nextBoundary = after s.time (period s.frontEnd.rate)) ∧
      (s.session.state.runs = true → t.session.state.runs = false →
        t.frontEnd.nextBoundary = boundaryAfter s.time (period s.session.draft.general.rate)) ∧
      t.sequencer.levels = s.frontEnd.filtered ∧
      (∀ c, vget t.sequencer.lastChange c =
        if chanBit s.sequencer.levels c = chanBit s.frontEnd.filtered c then vget s.sequencer.lastChange c
        else some s.time) ∧
      ∀ place, t.store.read place = s.store.read place) ∧
  (∀ (s : State) (f : Fire), s.time = s.frontEnd.nextBoundary → s.frontEnd.changing = 0 → s.mark.handed = some f →
    f.boundary ≠ s.time → exec (.sampleBoundary []) s = exec (.sampleBoundary []) s.takeHanded) ∧
  ∀ s : State, s.time = s.frontEnd.nextBoundary → s.frontEnd.changing = 0 →
    (∀ f, s.mark.handed = some f → f.boundary = s.time) →
    ∃ t, exec (.sampleBoundary []) s = .next t ∧
      let e : Element := {
        boundary := s.time, levels := s.frontEnd.filtered, glitch := chanSet fun c => vget s.frontEnd.changes c == 2 }
      let x := State.storeElement { s with frontEnd := s.frontEnd.deliver s.time } e
      let y := x.seqElement e
      let words := fun u => (x.decElement u e).1
      t.store = x.store ∧ t.session = x.session ∧
        (∀ u, vget t.decoders.units u = vget (x.decElement u e).2.decoders.units u) ∧
        ((∀ u, words u = []) →
          t.words = x.words ∧ t.mark = y.mark ∧ t.sequencer = y.deliverNotice.sequencer) ∧
        ∀ u w, words u = [w] → (∀ v, v ≠ u → words v = []) →
          let z := match x.cueOf w with
            | some i => y.seqCue i w.stop s.time
            | none => y
          t.words = (x.filterWord w).words ∧ t.mark = z.mark ∧ t.sequencer = z.deliverNotice.sequencer

/-! ## Capture store -/

/-- A staging write into a ring that is not full (R23), of a segment that still records or of an ended one with further
records staged: the oldest staged record goes to the place count steps after the oldest position, wrapping within its
segment, count rises by 1, the next write waits 4 ticks, and nothing else of the state changes, the other places of the
record memory among it. -/
def Obligations.StagingWriteFillsRing : Prop :=
  ∀ (s : State) (l : Layout) (x : Staged) (rest : List Staged),
    s.store.layout = some l → s.store.fifo = x :: rest → s.store.writeWait = 0 → x.seg.val < l.segments →
    (s.header x.seg).count < l.capacity →
    ((s.header x.seg).ending = none ∨ ∃ y ∈ rest, y.seg = x.seg) →
    ∃ t, exec .stagingWrite s = .next t ∧
      t = { s with store := { s.store with
              mem := t.store.mem, fifo := rest, writeWait := 4
              headers := vset s.store.headers x.seg
                { s.header x.seg with count := (s.header x.seg).count + 1 } } } ∧
      ∀ p, t.store.read p =
        if p = x.seg.val * l.capacity +
            ((s.header x.seg).oldest - x.seg.val * l.capacity + (s.header x.seg).count) % l.capacity
        then some x.rcd else s.store.read p

/-- A staging write into a full ring (R24): the record takes the oldest position, the oldest position moves on by one
within the segment, the base time moves by the new oldest record's delta, and count stays at capacity; while the segment
records, or has further records staged, nothing else of the store changes. Both queues take the trim (R123): the held
words of that segment that started before the new base time go, fed or not, and count as trimmed; the fed cursor moves
back by the fed ones (R128); where the feed is enabled the unfed ones count as feed-missed and raise FEED_MISSED (R132,
R135), and a COLLECTING feed left with no unfed word is QUIET, as is a DRAINING one with no returned frame (R129). The
latch slots and every other counter of the word memory stay. -/
def Obligations.StagingWriteMovesBase : Prop :=
  ∀ (s : State) (l : Layout) (x : Staged) (rest : List Staged) (r : Rec),
    s.store.layout = some l → s.store.fifo = x :: rest → s.store.writeWait = 0 → x.seg.val < l.segments →
    (s.header x.seg).count = l.capacity →
    let h := s.header x.seg
    let first := x.seg.val * l.capacity
    let next := first + (h.oldest - first + 1) % l.capacity
    let base := after h.base (r.delta.toNat * period l.rate)
    first ≤ h.oldest → h.oldest < first + l.capacity → s.store.read next = some r →
    let goes := fun (w : Word) => w.seg == x.seg && earlier w.start base
    let fedGone := fun q => (((s.words.queue q).words.take (s.words.queue q).fed).filter goes).length
    let unfedGone := fun q => (((s.words.queue q).words.drop (s.words.queue q).fed).filter goes).length
    ∃ t, exec .stagingWrite s = .next t ∧
      (h.ending = none ∨ (∃ y ∈ rest, y.seg = x.seg) →
        t = { s with
              words := t.words
              store := { s.store with
                mem := t.store.mem, fifo := rest, writeWait := 4
                headers := vset s.store.headers x.seg { h with oldest := next, base := base } } }) ∧
      (∀ p, t.store.read p = if p = h.oldest then some x.rcd else s.store.read p) ∧
      t.words = { s.words with qa := t.words.qa, qb := t.words.qb, feedMissedSeen := t.words.feedMissedSeen } ∧
      (t.words.feedMissedSeen = true ↔
        s.words.feedMissedSeen = true ∨ ∃ q, (s.words.queue q).feed.state ≠ .off ∧ 0 < unfedGone q) ∧
      ∀ q,
        let z := s.words.queue q
        let y := t.words.queue q
        y = { z with
          words := z.words.filter fun w => !goes w
          fed := z.fed - fedGone q
          trimmed := z.trimmed + BitVec.ofNat 32 (fedGone q + unfedGone q)
          feedMissed := if z.feed.state = .off then z.feedMissed else z.feedMissed + BitVec.ofNat 32 (unfedGone q)
          feed := y.feed } ∧
        let rests := 0 < unfedGone q ∧ y.words.length ≤ y.fed ∧
          (z.feed.state = .collecting ∨ z.feed.state = .draining ∧ z.feed.returned = [])
        (rests → y.feed = { z.feed with state := .quiet, timer := none }) ∧ (¬ rests → y.feed = z.feed)

/-- The staging write that puts in a closed or cut segment's last staged record, into a ring with room (R23) or over the
oldest record of a full one (R24), gives the segment its final state and produces its closure note at the end of the waiting
notes (R31, R32, R54); other headers keep what they hold. What a full ring's trim does to the words is StagingWriteMovesBase;
a ring with room leaves them. -/
def Obligations.StagingWriteEndsSegment : Prop :=
  ∀ (s : State) (l : Layout) (x : Staged) (rest : List Staged) (st : SegState) (written : SegHeader) (place : Nat),
    s.store.layout = some l → s.store.fifo = x :: rest → s.store.writeWait = 0 → x.seg.val < l.segments →
    (∀ y ∈ rest, y.seg ≠ x.seg) → (s.header x.seg).ending = some st →
    let h := s.header x.seg
    let first := x.seg.val * l.capacity
    let next := first + (h.oldest - first + 1) % l.capacity
    (h.count < l.capacity ∧ written = { h with count := h.count + 1 } ∧
        place = first + (h.oldest - first + h.count) % l.capacity ∨
      h.count = l.capacity ∧ first ≤ h.oldest ∧ h.oldest < first + l.capacity ∧ place = h.oldest ∧
        ∃ r, s.store.read next = some r ∧
          written = { h with oldest := next, base := after h.base (r.delta.toNat * period l.rate) }) →
    ∃ t, exec .stagingWrite s = .next t ∧ t.store.fifo = rest ∧
      t.header x.seg = { written with state := st, ending := none } ∧
      (∀ k, k ≠ x.seg → t.header k = s.header k) ∧
      (∀ p, t.store.read p = if p = place then some x.rcd else s.store.read p) ∧
      (h.count < l.capacity → t.words = s.words) ∧
      t.session = { s.session with
        notes := s.session.notes ++
          [{ kind := .closure
             held := { since := s.order, origin := .session, frame := closureNoteFrame x.seg (t.header x.seg) } }] }

/-- The store takes an element for the current segment, no offer waiting. At the start boundary it stages the FIRST
record (R19); of a segment that was triggered before, the TRIGGER record that was held back follows it at once with
delta 0, TRIG_OUT goes high for 16 ticks (R26, R93), and a post deadline there closes the segment (R30). Later a level
that differs from the reference or a glitch gives an ordinary record, 65,535 periods without one a FILLER, and anything
else nothing (R17, R18). The record is staged while the FIFO holds 13 records or fewer; one that finds 14 or more is
folded into the newest staged record, as MergeFolds says, and counts as merged (R20–R22). A record, in FILLING or in
POST, that brings the held count to R makes the segment ready: a FOLLOW in ALL sense opens, and in a session still ARMED
the sequencer enters stage 0 at that boundary, its timer started there; of a segment already triggered it is not told
(R45, R66, R71, R86). In POST a record, a FILLER or a merged one among them, lowers post remaining by 1; the segment
closes at the boundary where it reaches 0 or at its deadline, COMPLETE at once where nothing of it is staged (R29–R31),
and the next segment starts there with a FIRST record at once, or the session is DONE (R19, R47, R73). -/
def Obligations.StoreTakesElement : Prop :=
  ∀ (s : State) (l : Layout) (c : Current) (p : Plan) (e : Element),
    s.store.layout = some l → s.store.current = some c → s.session.active = some p → s.store.offers = [] →
    let h := s.header c.seg
    let need := if p.general.prefill then l.capacity - max 1 (l.capacity * l.p / 8 - 1) - 1 else 0
    let held := h.count + (s.store.fifo.filter fun x => x.seg == c.seg).length
    let firstRec : Rec := { plainRec 0 e.levels 0 with first := true }
    let triggerRec : Rec := { plainRec 0 e.levels 0 with trigger := true }
    let t := s.storeElement e
    let opens := ∃ g, s.mark.cfg = some g ∧ g.role = .follow ∧ g.sense = .all ∧ s.mark.state = .hold
    let readied := fun (mark : MarkUnit) (added : Nat) =>
      (s.session.ready = false → need ≤ held + added →
        t.session = { s.session with ready := true } ∧
        (s.session.state = .armed → s.sequencer.state = .waiting →
          t.sequencer.state = .running ∧ t.sequencer.stage = 0 ∧ t.sequencer.count = 0 ∧
            t.sequencer.patternFlag = false ∧ t.sequencer.entry = .atBoundary e.boundary ∧
            ∀ v, s.sequencer.stages = some v → t.sequencer.timer =
              if (vget v 0).timeout = 0 then none else some (after e.boundary ((vget v 0).timeout * 256))) ∧
        (s.session.state ≠ .armed ∨ s.sequencer.state ≠ .waiting → t.sequencer = s.sequencer) ∧
        (opens → t.mark = { mark with state := .opened }) ∧ (¬ opens → t.mark = mark)) ∧
      (s.session.ready = true ∨ held + added < need →
        t.session = s.session ∧ t.sequencer = s.sequencer ∧ t.mark = mark)
    let due := ∃ d, h.deadline = some d ∧ notAfter d e.boundary = true
    let closes := fun (produced : SegHeader) (fifo : List Staged) =>
      t.header c.seg =
        (if fifo.all (fun y => y.seg != c.seg) then
          { produced with close := some e.boundary, ending := none, state := .complete }
        else { produced with close := some e.boundary, ending := some .complete }) ∧
      (c.seg.val + 1 = 2 ^ l.segCode.toNat →
        t.store.current = none ∧ t.store.fifo = fifo ∧ t.session.state = .done ∧
          t.session.k = s.session.k ∧ t.sequencer.state = .stopped ∧ t.mark.state = .off ∧
          t.decoders.running = false ∧ t.frontEnd = s.frontEnd.load s.time s.session.draft.general) ∧
      ∀ k : Fin 8, k.val = c.seg.val + 1 → k.val < 2 ^ l.segCode.toNat →
        t.store.current = some { seg := k, start := e.boundary, taken := some e.boundary } ∧
          t.store.fifo = fifo ++ [{ seg := k, rcd := firstRec }] ∧
          t.store.reference = some { time := e.boundary, levels := e.levels } ∧
          t.header k =
            { SegHeader.empty with state := .filling, base := e.boundary, oldest := k.val * l.capacity } ∧
          t.session.state = .armed ∧ t.session.k = some k ∧ t.decoders = s.decoders ∧
          (t.session.ready = true ↔ need ≤ 1 + (s.store.fifo.filter fun x => x.seg == k).length) ∧
          (s.sequencer.state = .parked →
            t.sequencer.state = (if t.session.ready then .running else .waiting) ∧ t.sequencer.stage = 0 ∧
              t.sequencer.count = 0)
    (c.taken = none →
      (e.boundary ≠ c.start → t = s) ∧
      (e.boundary = c.start → h.state = .filling →
        t.store = { s.store with
          fifo := s.store.fifo ++ [{ seg := c.seg, rcd := firstRec }]
          reference := some { time := e.boundary, levels := e.levels }
          current := some { c with taken := some e.boundary } } ∧ readied s.mark 1) ∧
      ∀ r, e.boundary = c.start → h.state = .post → h.postRemaining = some r → 0 < r →
        let fifo := s.store.fifo ++ [{ seg := c.seg, rcd := firstRec }, { seg := c.seg, rcd := triggerRec }]
        (¬ due →
          t.store = { s.store with
            fifo := fifo
            reference := some { time := e.boundary, levels := e.levels }
            current := some { c with taken := some e.boundary } } ∧
          readied { s.mark with trigOutEnd := some (after s.time 16) } 2) ∧
        (due → closes h fifo)) ∧
    ∀ (b : StationTime) (f : Reference), c.taken = some b → s.store.reference = some f →
      let n := (e.boundary - f.time).toNat / period l.rate
      let made : Option Rec :=
        if e.levels ≠ f.levels ∨ e.glitch ≠ 0 then some (plainRec n e.levels e.glitch)
        else if 65535 ≤ n then some { plainRec 65535 f.levels 0 with filler := true }
        else none
      let merges := decide (14 ≤ s.store.fifo.length)
      let fifo := match made with
        | none => s.store.fifo
        | some x =>
          if merges then (s.store.offerRec c.seg e.boundary x).fifo else s.store.fifo ++ [{ seg := c.seg, rcd := x }]
      let reference := match made with
        | none => f
        | some x => { time := if merges then f.time else e.boundary, levels := x.levels }
      let counted := if made.isSome && merges then { h with merged := min (h.merged + 1) 65535 } else h
      (h.state = .filling →
        t.store.current = some { c with taken := some e.boundary } ∧ t.store.mem = s.store.mem ∧
        t.store.fifo = fifo ∧ t.store.reference = some reference ∧
        t.store.mergedSeen = (s.store.mergedSeen || (made.isSome && merges)) ∧
        (h.postRemaining = none → t.header c.seg = counted ∧ ∀ k, k ≠ c.seg → t.header k = s.header k) ∧
        (made.isSome = true → readied s.mark (if merges then 0 else 1)) ∧
        (made = none → t.session = s.session ∧ t.sequencer = s.sequencer ∧ t.mark = s.mark)) ∧
      ∀ r, h.state = .post → h.postRemaining = some r → 0 < r →
        let produced := if made.isSome then { counted with postRemaining := some (r - 1) } else h
        (made = none → ¬ due →
          t = { s with store := { s.store with current := some { c with taken := some e.boundary } } }) ∧
        (made.isSome = true → 1 < r → ¬ due →
          t.header c.seg = produced ∧ t.store.fifo = fifo ∧ t.store.reference = some reference ∧
            t.store.current = some { c with taken := some e.boundary } ∧ readied s.mark (if merges then 0 else 1)) ∧
        (made.isSome = true ∧ r = 1 ∨ due → closes produced fifo)

/-- An ordinary record that finds the FIFO holding 14 or more is folded into the newest staged record (R21): its levels
become the absorbed record's, its glitch set gains the channels that moved and the absorbed glitches, it gains MERGED and
keeps its delta and its own marks; the reference keeps its time and takes the new levels; the segment's merged count
rises, stopping at 65,535, and MERGED_SEEN is raised (R22). Nothing else of the store changes. -/
def Obligations.MergeFolds : Prop :=
  ∀ (st : Store) (k : Fin 8) (b : StationTime) (r : Rec) (l : List Staged) (x : Staged),
    st.fifo = l ++ [x] → 14 ≤ st.fifo.length →
    st.offerRec k b r =
      { st with
        fifo := l ++ [{ x with rcd :=
          { delta := x.rcd.delta
            levels := r.levels
            glitch := x.rcd.glitch ||| (x.rcd.levels ^^^ r.levels) ||| r.glitch
            first := x.rcd.first
            trigger := x.rcd.trigger
            filler := x.rcd.filler
            merged := true } }]
        reference := st.reference.map fun f => { time := f.time, levels := r.levels }
        headers := vset st.headers k { vget st.headers k with merged := min ((vget st.headers k).merged + 1) 65535 }
        mergedSeen := true }

/-- A trigger offered while the current segment is in POST counts a late mark or a late fire, each stopping at 65,535,
and changes nothing else; with no current segment an offer changes nothing (R27). At a tick whose boundary element the store
has still to take, an offer in POST waits for that element and is taken after it, so that it finds the segment that then
stands (R80, log entry 52). -/
def Obligations.LateOffersCount : Prop :=
  ∀ (s : State) (o : Offer) (late : Bool),
    (s.store.current = none → s.offer o late = s) ∧
      (∀ (l : Layout) (c : Current), s.store.layout = some l → s.store.current = some c →
        (s.header c.seg).state = .post →
        (s.elementDue c = false →
          s.offer o late = s.setHeader c.seg
            { s.header c.seg with
              lateMarks := if o.edge then min ((s.header c.seg).lateMarks + 1) 65535 else (s.header c.seg).lateMarks
              lateFires := if o.edge then (s.header c.seg).lateFires
                else min ((s.header c.seg).lateFires + 1) 65535 }) ∧
        (s.elementDue c = true →
          s.offer o late =
            { s with store := { s.store with offers := s.store.offers ++ [{ offer := o, late := late }] } })) ∧
      ∀ e : Element, s.store.offers = [{ offer := o, late := late }] →
        s.storeElement e =
          (let x := State.takeBoundary s e
           State.takeOffer { x with store := { x.store with offers := [] } } o late)

/-! ## Mark unit -/

/-- A trigger of a FILLING segment whose start boundary has been taken (R25, R26). A falling edge on MARK taken in WATCH
(R79, R82): the trigger time and cause time are the edge's stamp, and the cause has source MARK with the peer absent. A
fire that a SOLO station's mark unit takes, or that of a LEAD in DETACHED or DUPLICATE (R81, R94): the trigger time is
the fire boundary, cause and cause time are the fire's, and no MARK_NOTE is queued. In both, post remaining is the post
depth (R28), the TRIGGER record stands at the last boundary taken, TRIG_OUT goes high for 16 ticks (R93), the session is
TRIGGERED (R46), the sequencer is PARKED (R72), and the other headers, the record memory and every other block stay as
they are. That a fire handed over is taken when nothing else is due is the model's (log entry 26). The post deadline
(R25): none where the limit T is 0, else the first boundary at or after the trigger time plus T x 4,096 ticks. A fire
taken in POST is late (R84): it adds to the late fires (R27), and no pulse, window or note comes of it; with no current
segment it has no effect. An edge that makes no offer is only recorded (R79, R82, R86, R87): a rise in WATCH, PULSE or
HOLD, a fall in HOLD or OPEN or after the own edge of a pulse, and any edge in OFF; the list holds the last four. -/
def Obligations.MarkEdgeTriggers : Prop :=
  (∀ (s : State) (l : Layout) (c : Current) (b : StationTime) (f : Reference),
    s.store.layout = some l → s.store.current = some c → c.taken = some b → s.store.reference = some f →
    (s.header c.seg).state = .filling →
    let triggered := fun (t : State) (at_ : StationTime) (cause : Cause) (causeTime : StationTime) =>
      t.header c.seg =
        { s.header c.seg with
          trigTime := some at_, cause := some cause, causeTime := some causeTime
          postRemaining := some (max 1 (l.capacity * l.p / 8 - 1)), deadline := l.deadline at_, state := .post } ∧
      (∀ k, k ≠ c.seg → t.header k = s.header k) ∧
      t.store.fifo = s.store.fifo ++
        [{ seg := c.seg
           rcd := { plainRec ((b - f.time).toNat / period l.rate) f.levels 0 with trigger := true } }] ∧
      t.store.reference = some { time := b, levels := f.levels } ∧ t.store.mem = s.store.mem ∧
      t.session.state = .triggered ∧ t.session.k = s.session.k ∧ t.session.active = s.session.active ∧
      t.session.draft = s.session.draft ∧
      (s.sequencer.state ≠ .stopped → t.sequencer.state = .parked) ∧
      ∀ k, k ∉ [Block.store, .session, .sequencer, .mark] → s.sameIn t k
    (s.mark.state = .watch → s.mark.mrx = true → s.mark.edgeThisTick = false → s.mark.handed = none →
      ∃ t, exec (.markEdge false false) s = .next t ∧ triggered t s.time (.mark none) s.time ∧
        t.mark = { s.mark with
          mrx := false, edgeThisTick := true, edges := addEdge s.mark.edges { stamp := s.time, rising := false }
          trigOutEnd := some (after s.time 16) }) ∧
    ∀ (g : MarkCfg) (fire : Fire), s.mark.cfg = some g → s.mark.handed = some fire → s.pending = [] → s.dueList = [] →
      (g.role = .solo ∨ g.role = .lead ∧ s.bus.link.silent = true) →
      ∃ t, step s = .next t ∧ triggered t fire.boundary fire.cause fire.causeTime ∧
        t.mark = { s.mark with handed := none, trigOutEnd := some (after s.time 16) }) ∧
  (∀ (l : Layout) (at_ : StationTime),
    (l.postTime = 0 → l.deadline at_ = none) ∧
    (0 < l.postTime → ∃ d, l.deadline at_ = some d ∧ d.toNat % period l.rate = 0 ∧
      (d - (at_ + BitVec.ofNat 48 (l.postTime * 4096))).toNat < period l.rate)) ∧
  (∀ (s : State) (fire : Fire), s.mark.handed = some fire → s.mark.cfg.isSome = true → s.pending = [] → s.dueList = [] →
    (s.store.current = none → step s = .next { s with mark := { s.mark with handed := none } }) ∧
    ∀ (l : Layout) (c : Current), s.store.layout = some l → s.store.current = some c →
      (s.header c.seg).state = .post → s.elementDue c = false →
      step s = .next { s with
        mark := { s.mark with handed := none }
        store := { s.store with
          headers := vset s.store.headers c.seg
            { s.header c.seg with lateFires := min ((s.header c.seg).lateFires + 1) 65535 } } }) ∧
  ∀ (s : State) (rising late : Bool), s.mark.mrx = !rising → s.mark.edgeThisTick = false → s.mark.handed = none →
    (s.mark.state = .off ∨
      rising = true ∧ s.mark.state ≠ .opened ∨
      rising = false ∧
        (s.mark.state = .hold ∨ s.mark.state = .opened ∨ s.mark.state = .pulse ∧ s.mark.waitEnd = none)) →
    exec (.markEdge rising late) s = .next { s with mark := { s.mark with
      mrx := rising, edgeThisTick := true
      edges := (if s.mark.edges.length < 4 then s.mark.edges else s.mark.edges.drop 1) ++
        [{ stamp := s.time, rising := rising }] } }

/-- The mark unit's own edges, in any state of a session whose current segment is FILLING (R83, R87, R90). The first falling
edge of a pulse within the edge wait ends the wait, and the rising edge in OPEN ends the window and holds MARK again. Each
triggers the segment at the edge's stamp (R25, R46): for a LEAD's fire with that fire's cause and cause time, and a MARK_NOTE
with that cause and the edge's stamp is offered to the transmit queue; for the rise in OPEN of a FOLLOW with source MARK, the
peer absent, and no MARK_NOTE. The note is placed where the queue has room (R146). In a full queue it takes the place of the
last frame in the queue's order among those not on the wire and of a kind above its own, which goes back to its originator
(R148); it is dropped where no frame qualifies, and in DETACHED and DUPLICATE (R94, R147). Frame numbers are the model's (log
entry 10). -/
def Obligations.OwnEdgesTaken : Prop :=
  (∀ (s : State) (l : Layout) (c : Current), s.SessionInv → s.store.layout = some l → s.store.current = some c →
    (s.header c.seg).state = .filling → s.mark.edgeThisTick = false → s.mark.handed = none →
    let triggered := fun (t : State) (cause : Cause) (causeTime : StationTime) =>
      t.header c.seg =
        { s.header c.seg with
          trigTime := some s.time, cause := some cause, causeTime := some causeTime
          postRemaining := some (max 1 (l.capacity * l.p / 8 - 1)), deadline := l.deadline s.time, state := .post } ∧
      (∀ k, k ≠ c.seg → t.header k = s.header k) ∧ t.store.mem = s.store.mem ∧ t.session.state = .triggered ∧
      t.session.k = some c.seg ∧ (s.sequencer.state ≠ .stopped → t.sequencer.state = .parked)
    (∀ (fire : Fire) (e : StationTime), s.mark.state = .pulse → s.mark.mrx = true → s.mark.fire = some fire →
      s.mark.waitEnd = some e →
      ∃ t, exec (.markEdge false false) s = .next (t.queueMarkNote fire s.time) ∧
        triggered t fire.cause fire.causeTime ∧ t.bus = s.bus ∧ t.order = s.order + 1 ∧
        t.mark.waitEnd = none ∧ t.mark.fire = none ∧ t.mark.pulseEnd = s.mark.pulseEnd ∧
        t.mark.state = (if s.mark.pulseEnd = none then .watch else .pulse)) ∧
    (∀ fire : Fire, s.mark.state = .opened → s.mark.mrx = false → s.mark.fire = some fire →
      ∃ t, exec (.markEdge true false) s = .next (t.queueMarkNote fire s.time) ∧
        triggered t fire.cause fire.causeTime ∧ t.bus = s.bus ∧ t.order = s.order + 1 ∧
        t.mark.state = .hold ∧ t.mark.fire = none ∧ t.mark.closing = none ∧ t.mark.mrx = true) ∧
    (s.mark.state = .opened → s.mark.mrx = false → s.mark.fire = none →
      ∃ t, exec (.markEdge true false) s = .next t ∧ triggered t (.mark none) s.time ∧ t.bus = s.bus ∧
        t.mark.state = .hold ∧ t.mark.closing = none ∧ t.mark.mrx = true)) ∧
  ∀ (s : State) (fire : Fire) (stamp : StationTime),
    let f := markNoteFrame fire.seg stamp fire.cause
    let new : QEntry := { id := s.order, origin := .markUnit, frame := f }
    (s.bus.link.silent = true → s.queueMarkNote fire stamp = s) ∧
    (s.bus.link.silent = false → s.bus.queue.length < 8 →
      s.queueMarkNote fire stamp =
        { s with bus := { s.bus with queue := insertFrame new s.bus.queue }, order := s.order + 1 }) ∧
    (s.bus.link.silent = false → 8 ≤ s.bus.queue.length →
      (∀ e ∈ s.bus.queue, e.frame.kind ≤ f.kind ∨ s.bus.onWire = some e.id) → s.queueMarkNote fire stamp = s) ∧
    ∀ l e r, s.bus.link.silent = false → s.bus.queue = l ++ e :: r → 8 ≤ s.bus.queue.length →
      (∀ x ∈ l ++ r, x.id ≠ e.id) → f.kind < e.frame.kind → s.bus.onWire ≠ some e.id →
      (∀ x ∈ r, x.frame.kind ≤ f.kind ∨ s.bus.onWire = some x.id) →
      s.queueMarkNote fire stamp =
        State.returnFrame { s with
          bus := { s.bus with queue := insertFrame new (l ++ r) }, order := s.order + 1 } e

/-- The timers of the mark unit and of a feed do what their rules give, and nothing else: the 16-tick pulse ends and MTX
is released, the unit in WATCH again once the own edge has been taken (R83); the TRIG_OUT pulse ends (R93); a dead pulse
and a missed window count one, raise MISSED_WINDOW and ask the sequencer to restart (R85, R89), which a FIRED one does
at stage 0, with its timer started at that tick where its T is above 0 (R66, R70); a COLLECTING feed whose timer expires
enters DRAINING (R129), its wait for a place counted from then (log entry 18). The order counter is the model's (log
entry 10). -/
def Obligations.MarkAndFeedTimers : Prop :=
  let restarted := fun (s t : State) =>
    (s.sequencer.state ≠ .fired → t.sequencer = s.sequencer) ∧
    (s.sequencer.state = .fired → ∀ v : Vector Stage 4, s.sequencer.stages = some v →
      t.sequencer = { s.sequencer with
        state := .running, stage := 0, count := 0, patternFlag := false, entry := .atTick
        timer := if (vget v 0).timeout = 0 then none else some (after s.time ((vget v 0).timeout * 256)) })
  (∀ (s : State) (e : StationTime), s.mark.state = .pulse → s.mark.pulseEnd = some e → notAfter e s.time = true →
    exec .markPulseEnd s = .next { s with mark := { s.mark with
      pulseEnd := none, state := if s.mark.waitEnd = none then .watch else .pulse } }) ∧
  (∀ (s : State) (e : StationTime), s.mark.trigOutEnd = some e → notAfter e s.time = true →
    exec .trigOutEnd s = .next { s with mark := { s.mark with trigOutEnd := none } }) ∧
  (∀ (s : State) (e : StationTime), s.mark.state = .pulse → s.mark.waitEnd = some e → notAfter e s.time = true →
    ∃ t, exec .edgeWaitEnd s = .next t ∧
      t = { s with sequencer := t.sequencer, mark := { s.mark with
        state := .watch, fire := none, pulseEnd := none, waitEnd := none
        missed := min (s.mark.missed + 1) 65535, missedSeen := true } } ∧
      restarted s t) ∧
  (∀ (s : State) (e : StationTime), s.mark.state = .opened → s.mark.heldOpen = false → s.mark.closing = some e →
    notAfter e s.time = true →
    ∃ t, exec .windowClose s = .next t ∧
      t = { s with sequencer := t.sequencer, mark := { s.mark with
        state := .hold, fire := none, closing := none
        missed := min (s.mark.missed + 1) 65535, missedSeen := true } } ∧
      restarted s t) ∧
  ∀ (s : State) (q : QueueId) (e : StationTime), (s.words.queue q).feed.state = .collecting →
    (s.words.queue q).feed.timer = some e → notAfter e s.time = true →
    exec (.feedTimeout q) s = .next { s with
      words := s.words.setQueue q { s.words.queue q with
        feed := { (s.words.queue q).feed with state := .draining, timer := none, since := s.order } }
      order := s.order + 1 }

/-! ## Session control -/

/-- A PLAN_PART taken (R39, R40): a part of identity 0 to 15 and of that part's length replaces that part of the draft
whole, the parts with other identities keep what they hold, and of the rest of the session nothing moves; a GENERAL part
taken outside a running session loads the front end, and nothing else does. A part with another identity or length is
discarded: the frame is only received. -/
def Obligations.PlanPartReplacesItsPart : Prop :=
  ∀ (f : RxFrame) (s : State) (id : Byte) (part : List Byte), s.Takes f → f.payload = id :: part →
    (planPartLength id.toNat ≠ some part.length → exec (.planPart f) s = .next (s.takeGood f)) ∧
    (planPartLength id.toNat = some part.length →
      ∃ t, exec (.planPart f) s = .next t ∧
        t = { s.takeGood f with
          session := { s.session with draft := t.session.draft }
          frontEnd :=
            if id = 0 ∧ s.session.state.runs = false then s.frontEnd.load s.time (readGeneral part)
            else s.frontEnd } ∧
        let d := s.session.draft
        let d' := t.session.draft
        d'.general = (if id.toNat = 0 then readGeneral part else d.general) ∧
          (∀ n : Fin 4, vget d'.stages n = if id.toNat = 1 + n.val then readStage part else vget d.stages n) ∧
          (∀ n : Fin 4, vget d'.decoders n = if id.toNat = 5 + n.val then readDecPart part else vget d.decoders n) ∧
          (∀ i : Fin 24, vget d'.filters i =
            if id.toNat = 9 + i.val / 4 then readFilter (part.drop (i.val % 4 * 9)) else vget d.filters i) ∧
          d'.qa = (if id.toNat = 15 then readQueueA part else d.qa) ∧
          d'.qb = (if id.toNat = 15 then readQueueB part else d.qb))

/-- Every field of a plan part, as the draft holds it once the part is written. The fields of R41's table are clamped to the
nearest end of their range, a gap threshold of 1 becoming 2. The fields whose every encoded value is valid, those that a
code turns off and those whose errors ARM refuses are stored as received (R41). A code acts as R202's tables give: role 3
as SOLO, a stage kind above 4 unassigned, direction 2 or more EITHER, a decoder kind above 4 OFF, a default destination
above 1 DISCARD, parity 2 or more ODD, filter rule 3 RANGE, a destination type above 2 DISCARD; an optional channel is
none when bit 7 of its byte is set. Bits that no table names are not read. -/
def Obligations.WrittenFieldsClamped : Prop :=
  ∀ (d : Plan) (l : List Byte),
    let num := fun (i : Nat) => (byteAt l i).toNat
    let on := fun (i n : Nat) => (byteAt l i).getLsbD n
    let chan := fun (i : Nat) => (⟨num i % 16, Nat.mod_lt _ (by decide)⟩ : Chan)
    let optional := fun (i : Nat) => if on i 7 then none else some (chan i)
    let set := fun (i : Nat) => BitVec.ofNat 16 (field l i 2)
    let g := (d.writePart 0 l).general
    (ClampedTo 1 8 (num 2) g.p ∧ ClampedTo 1 4095 (field l 6 2) g.hold ∧ ClampedTo 0 4 (num 12) g.stageCount ∧
      g.rate = BitVec.ofNat 4 (num 0) ∧ g.segCode = BitVec.ofNat 2 (num 1) ∧ g.postTime = field l 3 2 ∧
      g.threshold = ⟨#[byteAt l 8, byteAt l 10], rfl⟩ ∧
      g.hysteresis = ⟨#[BitVec.ofNat 2 (num 9 / 4), BitVec.ofNat 2 (num 11 / 4)], rfl⟩ ∧
      g.deglitch = ⟨#[BitVec.ofNat 2 (num 9), BitVec.ofNat 2 (num 11)], rfl⟩ ∧ g.prefill = on 5 0 ∧
      (let code := num 5 / 2 % 4
       (code = 0 ∨ code = 3 → g.role = .solo) ∧ (code = 1 → g.role = .lead) ∧ (code = 2 → g.role = .follow)) ∧
      g.sense = if on 5 3 then .all else .any) ∧
    (∀ n : Fin 4,
      let st := vget (d.writePart (1 + n.val) l).stages n
      ClampedTo 1 65535 (field l 11 2) st.n ∧ st.timeout = field l 13 2 ∧ st.satisfiedFires = on 15 0 ∧
        st.timeoutFires = on 15 1 ∧
        (num 0 = 0 → st.cond = .pattern (set 1) (set 3)) ∧
        (num 0 = 1 → st.cond =
          .edge (set 1) (if num 3 = 0 then .rising else if num 3 = 1 then .falling else .either)) ∧
        (num 0 = 2 → st.cond = .glitch (set 1)) ∧
        (num 0 = 3 → st.cond = .pulse (chan 1) (on 2 0) (field l 3 4) (field l 7 4)) ∧
        (num 0 = 4 → st.cond = .cue (BitVec.ofNat 5 (num 1))) ∧
        (4 < num 0 → st.cond = .unassigned (byteAt l 0))) ∧
    (∀ n : Fin 4,
      let x := vget (d.writePart (5 + n.val) l).decoders n
      x.dest = (if num 1 = 0 then .queue .a else if num 1 = 1 then .queue .b else .discard) ∧
        (num 0 = 0 ∨ 4 < num 0 → x.cfg = .off) ∧
        (num 0 = 1 → ∃ c, x.cfg = .uart c ∧
          c.ch = chan 2 ∧ ClampedTo 0 (2 ^ 24) (field l 3 4) c.bit16 ∧ ClampedTo 5 9 (num 7) c.dataBits ∧
            c.parity = (if num 8 = 0 then .none else if num 8 = 1 then .even else .odd) ∧ c.twoStops = on 9 0 ∧
            c.idleHigh = on 10 0 ∧ c.gap = if num 11 = 1 then 2 else num 11) ∧
        (num 0 = 2 → ∃ c, x.cfg = .spi c ∧
          c.clock = chan 2 ∧ c.falling = on 3 0 ∧ c.dataOut = optional 4 ∧ c.dataIn = optional 5 ∧
            c.select = optional 6 ∧ c.activeHigh = on 7 0 ∧ ClampedTo 4 16 (num 8) c.length ∧ c.lsbFirst = on 9 0 ∧
            c.resync = field l 10 3) ∧
        (num 0 = 3 → x.cfg = .i2c (chan 2) (chan 3)) ∧
        (num 0 = 4 → x.cfg = .bmc {
          ch := chan 2, halfMin := field l 3 3, halfMax := field l 6 3, fullMin := field l 9 3
          fullMax := field l 12 3 })) ∧
    (∀ (n : Fin 6) (i : Fin 24), i.val / 4 = n.val →
      let x := vget (d.writePart (9 + n.val) l).filters i
      let o := i.val % 4 * 9
      let type := num (o + 8) / 16
      x.enabled = on o 7 ∧ x.cue = on o 6 ∧ x.value2 = on o 5 ∧
        x.rule = (if num o % 4 = 1 then .pair else if num o % 4 = 2 then .mask else .range) ∧
        x.decoders = BitVec.ofNat 4 (num (o + 1)) ∧ x.kinds = set (o + 2) ∧ x.v1 = set (o + 4) ∧ x.v2 = set (o + 6) ∧
        x.dest = if type = 0 then .queue .a
          else if type = 1 then .queue .b
          else if type = 2 then .latch (BitVec.ofNat 4 (num (o + 8)))
          else .discard) ∧
    let w := d.writePart 15 l
    let feed := fun (o : Nat) (x : FeedCfg) =>
      x.enabled = on o 7 ∧
        x.target = (if on o 3 then none else some ⟨num o % 8, Nat.mod_lt _ (by decide)⟩) ∧
        x.levelCode = BitVec.ofNat 2 (num (o + 1)) ∧ ClampedTo 1 255 (num (o + 2)) x.timeout
    ClampedTo 0 1024 (field l 0 2) w.qa.capacity ∧ ClampedTo 0 1024 (field l 2 2) w.qb.capacity ∧
      w.qa.overwrite = on 4 0 ∧ w.qb.overwrite = on 4 1 ∧ feed 5 w.qa.feed ∧ feed 8 w.qb.feed

/-- The checks of ARM (R43), part by part in the order of their identities: a part passes where it does not have the
fault its row names, a decoder that is OFF, a stage at or above the count and a disabled filter entry being left out. A
draft passes exactly where every part does, and a draft that fails is answered with the first identity, in that order,
whose part fails. -/
def Obligations.ArmChecksTheDraft : Prop :=
  ∀ (p : Plan) (fe : FrontEnd),
    let passes := fun (id : Nat) =>
      (id = 0 → (p.general.stageCount = 0 ↔ p.general.role = .follow)) ∧
      (∀ n : Fin 4, id = 1 + n.val → n.val < p.general.stageCount →
        ((vget p.stages n).satisfiedFires = false → n.val + 1 < p.general.stageCount) ∧
          ∀ ch high min max, (vget p.stages n).cond = .pulse ch high min max → max = 0 ∨ min ≤ max) ∧
      (∀ n : Fin 4, id = 5 + n.val →
        (∀ ch ∈ (vget p.decoders n).cfg.channels, fe.chanPresent ch = true) ∧
        (∀ c, (vget p.decoders n).cfg = .uart c → 128 ≤ c.bit16) ∧
        (∀ c, (vget p.decoders n).cfg = .spi c → c.dataOut ≠ none ∨ c.dataIn ≠ none) ∧
        ∀ c, (vget p.decoders n).cfg = .bmc c →
          c.halfMin ≤ c.halfMax ∧ c.halfMax < c.fullMin ∧ c.fullMin ≤ c.fullMax) ∧
      (∀ i : Fin 24, id = 9 + i.val / 4 → (vget p.filters i).enabled = true →
        (∃ u : Fin 4, (vget p.filters i).decoders.getLsbD u.val = true ∧ (vget p.decoders u).cfg ≠ .off) ∧
          ∀ n, (vget p.filters i).dest = .latch n → n.toNat ≤ 7) ∧
      (id = 15 → p.qa.capacity + p.qb.capacity ≤ 1024)
    (p.firstBad fe = none ↔ ∀ id, passes id) ∧
      ∀ id, p.firstBad fe = some id ↔ ¬ passes id ∧ ∀ j, j < id → passes j

/-- An ARM that is not accepted (R43, R53): one whose mask leaves this station out is only received; one taken in ARMED
or TRIGGERED produces a BUSY refusal note, and one whose draft fails a BAD_PART note with the first failing part, at the
end of the waiting notes in place of an older refusal; the session, the plans and every block but session control stay as
they are. -/
def Obligations.ArmRefused : Prop :=
  ∀ (f : RxFrame) (s : State) (m : Byte), s.Takes f → f.payload = [m] →
    (m.getLsbD s.bus.own.val = false → exec (.arm f) s = .next (s.takeGood f)) ∧
    ∀ failing : Option Nat, m.getLsbD s.bus.own.val = true →
      (s.session.state.runs = true ∧ failing = none ∨
        s.session.state.runs = false ∧ failing.isSome = true ∧ failing = s.session.draft.firstBad s.frontEnd) →
      ∃ t, exec (.arm f) s = .next t ∧
        t = { s.takeGood f with
          order := s.order + 1
          session := { s.session with
            notes := (s.session.notes.filter fun n => n.kind != .refusal) ++
              [{ kind := .refusal
                 held := { since := s.order, origin := .session
                           frame := refusalNoteFrame failing s.session.state s.session.k } }]
            returned := t.session.returned } } ∧
        ∀ h ∈ t.session.returned, h ∈ s.session.returned

/-- An accepted ARM (R44): the draft becomes the active plan and every block starts the new session as the rule's table
lists: every word counter is 0, both feeds are QUIET or OFF with cursor and timer reset (R127, R136), and each ask from
the bus ends with a pending GONE frame for its asker (R180), whose part index is the number of the entry's parts sent
and whose first column is the one its next part would have carried, 0 for an entry never served; it bears the last-part
mark. The RUNS and BOXES frames that wait in the transmit queue are withdrawn; no own frame is on the wire while another
is received. The table may then hold own entries: waiting local lanes are offered again in the new session, which is the
model's order (log entry 23). The draft, the sticky flags, the activity mask, the edge list, the view plan, the score
and the link state are not touched, beyond what the good receipt of the frame does. -/
def Obligations.ArmAccepted : Prop :=
  ∀ (f : RxFrame) (s : State) (m : Byte), s.Takes f → f.payload = [m] → m.getLsbD s.bus.own.val = true →
    s.session.state.runs = false → s.session.draft.firstBad s.frontEnd = none →
    let p := s.session.draft
    let b := boundaryAfter s.time (period p.general.rate)
    let fresh := fun (c : QueueCfg) => ({
      capacity := c.capacity, overwrite := c.overwrite, words := [], fed := 0, enqueued := 0, overwritten := 0
      trimmed := 0, feedMissed := 0
      feed := {
        cfg := some { c.feed with target := if c.feed.target = some s.bus.own then none else c.feed.target }
        state := if c.feed.enabled then .quiet else .off
        timer := none, returned := [], seq := 0, since := 0 } } : WQueue)
    ∃ t, exec (.arm f) s = .next t ∧
      (t.session.active = some p ∧ t.session.draft = p ∧ t.session.state = .armed ∧ t.session.k = some 0 ∧
        t.session.ready = false ∧
        (∀ n ∈ t.session.notes, n.kind ≠ .closure) ∧
        t.session.notes.getLast?.map (fun n => n.held.frame) = some (changeNoteFrame .armed (some 0) (some p) b)) ∧
      t.frontEnd = s.frontEnd.load s.time p.general ∧
      (t.store.layout = some p.layout ∧ t.store.mem = [] ∧ t.store.fifo = [] ∧ t.store.reference = none ∧
        t.store.current = some { seg := 0, start := b, taken := none } ∧ t.store.mergedSeen = s.store.mergedSeen ∧
        t.header 0 = { SegHeader.empty with state := .filling, base := b } ∧
        ∀ k, k ≠ 0 → t.header k = SegHeader.empty) ∧
      (t.sequencer.stages = some p.stages ∧ t.sequencer.stageCount = p.general.stageCount ∧
        t.sequencer.state = (if p.general.stageCount = 0 then .stopped else .waiting) ∧ t.sequencer.stage = 0 ∧
        t.sequencer.count = 0 ∧ t.sequencer.timer = none ∧ t.sequencer.levels = s.sequencer.levels ∧
        t.sequencer.lastChange = s.sequencer.lastChange) ∧
      (t.mark.cfg = some { role := p.general.role, sense := p.general.sense, hold := p.general.hold } ∧
        t.mark.state = (if p.general.role = .solo then .off else if p.general.sense = .any then .watch else .hold) ∧
        t.mark.missed = 0 ∧ t.mark.handed = none ∧ t.mark.fire = none ∧ t.mark.edges = s.mark.edges ∧
        t.mark.missedSeen = s.mark.missedSeen) ∧
      (t.decoders.running = true ∧ t.decoders.undersampledSeen = s.decoders.undersampledSeen ∧
        ∀ u, (vget t.decoders.units u).cfg = some (vget p.decoders u) ∧
          (vget t.decoders.units u).assembly = .fresh) ∧
      (t.words.filters = some p.filters ∧ t.words.completed = 0 ∧ t.words.discarded = 0 ∧ t.words.lost = 0 ∧
        t.words.latched = 0 ∧ t.words.trimmedAtCompletion = 0 ∧
        (∀ q, (q = .a ∧ t.words.queue q = fresh p.qa) ∨ (q = .b ∧ t.words.queue q = fresh p.qb)) ∧
        (∀ n, vget t.words.latches n = { word := none, isNew := false, overrun := 0 }) ∧
        t.words.feedMissedSeen = s.words.feedMissedSeen ∧ t.words.latchOverrunSeen = s.words.latchOverrunSeen) ∧
      t.bus.queue = (s.bus.queue.filter fun x => x.frame.kind != 11 && x.frame.kind != 12) ∧
      ((∀ e ∈ t.asks.table, e.own = true) ∧ t.asks.status = s.asks.status ∧
        (∀ r ∈ s.asks.refusals, r ∈ t.asks.refusals) ∧
        ∀ e ∈ s.asks.table, e.own = false →
          ∃ r ∈ t.asks.refusals, r.asker = e.asker ∧ r.tag = e.tag ∧ r.busy = false ∧
            let first := match e.parts[e.sent]? with | some x => x.first | none => 0
            r.held.frame = {
              kind := if e.words then 12 else 11, dst := e.asker, bcast := false
              payload := [e.tag, 4, BitVec.ofNat 8 e.sent] ++ b2 first ++ [1, 0] }) ∧
      t.peers = (s.takeGood f).peers ∧ t.bus.link = (s.takeGood f).bus.link ∧
      t.bus.score = (s.takeGood f).bus.score ∧ t.view.lanes = s.view.lanes ∧ t.view.window = s.view.window

/-- A HALT (R48, R32), told where no offer of the tick still waits for its element (log entry 52): in ARMED and
TRIGGERED the current segment is cut at the last boundary taken for it, CUT at once where none of its records is staged;
the session is ABORTED with its number k kept and a change note produced, the front end loads the draft, the decoder
units and the sequencer stop and the mark unit is OFF; the word memory, the record memory and the other headers keep
what they hold. In the other states it is only received. -/
def Obligations.HaltCutsTheSegment : Prop :=
  ∀ (f : RxFrame) (s : State), s.Takes f → f.payload = [] →
    (s.session.state.runs = false → exec (.halt f) s = .next (s.takeGood f)) ∧
    ∀ c : Current, s.session.state.runs = true → s.store.current = some c → s.store.offers = [] →
      ∃ t, exec (.halt f) s = .next t ∧
        t.session.state = .aborted ∧ t.session.k = s.session.k ∧ t.session.active = s.session.active ∧
        t.session.draft = s.session.draft ∧
        (∃ n ∈ t.session.notes, n.kind = .change ∧
          n.held.frame = changeNoteFrame .aborted s.session.k s.session.active (c.taken.getD c.start)) ∧
        t.store.current = none ∧ t.store.mem = s.store.mem ∧ t.store.fifo = s.store.fifo ∧
        t.header c.seg =
          (if s.store.stagedOf c.seg = 0 then
            { s.header c.seg with close := some (c.taken.getD c.start), ending := none, state := .cut }
          else { s.header c.seg with close := some (c.taken.getD c.start), ending := some .cut }) ∧
        (∀ k, k ≠ c.seg → t.header k = s.header k) ∧
        t.frontEnd = s.frontEnd.load s.time s.session.draft.general ∧
        t.decoders.running = false ∧ t.sequencer.state = .stopped ∧ t.sequencer.timer = none ∧
        t.sequencer.stage = s.sequencer.stage ∧ t.sequencer.count = s.sequencer.count ∧
        t.mark.state = .off ∧ t.mark.edges = s.mark.edges ∧ t.mark.missed = s.mark.missed ∧ t.words = s.words

/-! ## Trigger sequencer -/

/-- A stage timer that expires, in every role and sense (R66). Under RESTART it enters stage 0 at the expiry tick: count 0,
pattern flag clear, its own timer started where its T is above 0; nothing else changes. Under FIRE the sequencer is FIRED
with its stage, count and pattern flag as they stand and the timer stopped, and it hands the mark unit a fire with the
current segment, the stage ended EXPIRED with its kind as the cause, the expiry tick as cause time and the last boundary
delivered as fire boundary; nothing else changes (R67, R68). The expiry tick and the start of the new timer are station time
when the expiry is taken (log entry 35), and the fire says whether its stage's pattern holds then (log entry 53). When
nothing else is due the mark unit takes the fire (log entry 26). A LEAD that can drive, its segment FILLING, pulls MTX low
for 16 ticks with an edge wait of 32 from WATCH (R83), and from HOLD in ALL sense opens a window that closes H × 16 ticks
later, held open while the pattern holds (R88). With no current segment the fire has no effect (R74). -/
def Obligations.StageTimerExpires : Prop :=
  (∀ (s : State) (v : Vector Stage 4) (e : StationTime),
    s.sequencer.state = .running → s.sequencer.stages = some v → s.sequencer.timer = some e →
    notAfter e s.time = true → s.sequencer.noticeWaiting = false →
    ((vget v s.sequencer.stage).timeoutFires = false →
      exec .stageTimerExpiry s = .next { s with sequencer := { s.sequencer with
        state := .running, stage := 0, count := 0, patternFlag := false, entry := .atTick
        timer := if (vget v 0).timeout = 0 then none else some (after s.time ((vget v 0).timeout * 256)) } }) ∧
    ∀ b : StationTime, (vget v s.sequencer.stage).timeoutFires = true → s.frontEnd.lastBoundary = some b →
      ∃ f : Fire,
        exec .stageTimerExpiry s = .next { s with
          sequencer := { s.sequencer with state := .fired, timer := none }
          mark := { s.mark with handed := some f } } ∧
        (∀ k, s.session.k = some k → f.seg = k) ∧
        f.cause = .sequencer s.sequencer.stage true (vget v s.sequencer.stage).cond.code none ∧
        f.causeTime = s.time ∧ f.boundary = b ∧
        (f.lasting = true ↔ ∃ mask value, (vget v s.sequencer.stage).cond = .pattern mask value ∧
          ∀ c, chanBit mask c = true → chanBit s.sequencer.levels c = chanBit value c)) ∧
  ∀ (s : State) (f : Fire) (g : MarkCfg), s.mark.handed = some f → s.mark.cfg = some g → s.pending = [] →
    s.dueList = [] →
    (s.store.current = none → step s = .next { s with mark := { s.mark with handed := none } }) ∧
    ∀ c : Current, s.store.current = some c → (s.header c.seg).state = .filling → g.role = .lead →
      s.bus.link.silent = false →
      (g.sense = .any → s.mark.state = .watch →
        ∃ t, step s = .next t ∧ t.mtxLow = true ∧
          t = { s with mark := { s.mark with
            handed := none, state := .pulse, fire := some f
            pulseEnd := some (after s.time 16), waitEnd := some (after s.time 32) } }) ∧
      (g.sense = .all → s.mark.state = .hold →
        ∃ t, step s = .next t ∧ t.mtxLow = false ∧
          t = { s with mark := { s.mark with
            handed := none, state := .opened, fire := some f
            closing := some (after s.time (g.hold * 16)), heldOpen := f.lasting } })

/-- A RUNNING stage that counts an element's boundary (R58, R64): without an occurrence its count stays, with one it
rises by 1; short of N the stage goes on with its timer; at N under NEXT the stage after it is entered at that boundary
with count 0; at N under FIRE the sequencer is FIRED with its count at N, and hands the mark unit a fire with the
current segment, the stage ended SATISFIED with its kind as the cause, and that boundary as cause time and fire boundary
(R67, R68); what the mark unit does with it comes after (log entry 26). The pattern flag of a stage that goes on or
fires takes the truth its PATTERN has at the element, is left alone under every other condition, and is clear in a stage
just entered (R59). That the fire carries whether its stage's pattern holds, `lasting`, is the model's (log entry 53). A
stage entered at a boundary counts what belongs to later boundaries alone, one entered at a tick counts every element
(R58); an element that it does not count, and one that finds the sequencer STOPPED, WAITING or PARKED, moves the copy
alone. A FIRED one counts nothing: where the stage that fired has a PATTERN, satisfied or expired, it reports the
pattern's truth at every element to the mark unit (R70), and the window of an OPEN LEAD follows it (R88): held open at a
true report; closing H x 16 ticks after the first false one that follows a true one, or as it was if that is later; a
fire still handed over carries the report with it (log entries 26 and 53). The copy of the level set and the last-change
times follow the element in every case (R57), and the store and the session stay as they are. -/
def Obligations.RunningStageCounts : Prop :=
  (∀ (q : Sequencer) (b : StationTime),
    q.counts b = true ↔ q.entry = .atTick ∨ ∃ a, q.entry = .atBoundary a ∧ earlier a b = true) ∧
  ∀ (s : State) (e : Element),
    let t := s.seqElement e
    let q := t.sequencer
    let copied := { s.sequencer with levels := e.levels, lastChange := q.lastChange }
    (∀ c, vget q.lastChange c =
      if chanBit s.sequencer.levels c = chanBit e.levels c then vget s.sequencer.lastChange c else some e.boundary) ∧
    (s.sequencer.state = .stopped ∨ s.sequencer.state = .waiting ∨ s.sequencer.state = .parked ∨
        s.sequencer.state = .running ∧ s.sequencer.counts e.boundary = false →
      t = { s with sequencer := copied }) ∧
    (∀ v : Vector Stage 4, s.sequencer.state = .fired → s.sequencer.stages = some v →
      ((∀ mask value, (vget v s.sequencer.stage).cond ≠ .pattern mask value) → t = { s with sequencer := copied }) ∧
      ∀ mask value, (vget v s.sequencer.stage).cond = .pattern mask value →
        let truth := (List.finRange 16).all fun c => !chanBit mask c || chanBit e.levels c == chanBit value c
        t = { s with sequencer := copied, mark := t.mark } ∧
        (∀ f, s.mark.handed = some f → t.mark = { s.mark with handed := some { f with lasting := truth } }) ∧
        (s.mark.handed = none → s.mark.state ≠ .opened ∨ s.mark.cfg = none ∨ s.mark.closing = none →
          t.mark = s.mark) ∧
        ∀ g close, s.mark.handed = none → s.mark.state = .opened → s.mark.cfg = some g → s.mark.closing = some close →
          let next := after e.boundary (g.hold * 16)
          (truth = true → t.mark = { s.mark with heldOpen := true }) ∧
          (truth = false → s.mark.heldOpen = true →
            t.mark = { s.mark with heldOpen := false, closing := some (if earlier next close then close else next) }) ∧
          (truth = false → s.mark.heldOpen = false → t.mark = s.mark)) ∧
    ∀ v : Vector Stage 4,
      s.sequencer.state = .running → s.sequencer.stages = some v → s.sequencer.counts e.boundary = true →
      s.sequencer.count < (vget v s.sequencer.stage).n →
      let st := vget v s.sequencer.stage
      let flag := match st.cond with
        | .pattern mask value => (List.finRange 16).all fun c => !chanBit mask c || chanBit e.levels c == chanBit value c
        | _ => s.sequencer.patternFlag
      q.levels = e.levels ∧ t.store = s.store ∧ t.session = s.session ∧
        (s.sequencer.occurs st.cond e = false → t = { s with sequencer := { copied with patternFlag := flag } }) ∧
        (s.sequencer.occurs st.cond e = true →
          (s.sequencer.count + 1 < st.n →
            t = { s with sequencer := { copied with patternFlag := flag, count := s.sequencer.count + 1 } }) ∧
          (s.sequencer.count + 1 = st.n → st.satisfiedFires = false → s.sequencer.stage.val < 3 →
            q.state = .running ∧ q.stage.val = s.sequencer.stage.val + 1 ∧ q.count = 0 ∧ q.patternFlag = false ∧
              q.entry = .atBoundary e.boundary ∧ t.mark = s.mark ∧
              q.timer = (if (vget v q.stage).timeout = 0 then none
                else some (after e.boundary ((vget v q.stage).timeout * 256)))) ∧
          (s.sequencer.count + 1 = st.n → st.satisfiedFires = true →
            q = { copied with patternFlag := flag, state := .fired, count := st.n, timer := none } ∧
              ∃ f : Fire, t.mark = { s.mark with handed := some f } ∧ (∀ k, s.session.k = some k → f.seg = k) ∧
                f.cause = .sequencer s.sequencer.stage false st.cond.code none ∧ f.causeTime = e.boundary ∧
                f.boundary = e.boundary ∧ (f.lasting = true ↔ ∃ mask value, st.cond = .pattern mask value)))

/-- What one occurrence of each condition kind is (R55, R59–R63): a pattern that has become true, an edge of the stage's
direction on a channel of the set, a glitch of a channel of the set, a pulse of the polarity whose width, a signed
difference of station times, lies in range and whose start is known; a CUE and an unassigned kind have none in an
element. A cue is one occurrence of a RUNNING stage whose CUE condition names its entry or ANY (31), where the stage
counts the boundary it belongs to: below N the count rises by 1; at N under NEXT the stage after it is entered at the
cue's boundary with count 0 (R64); at N under FIRE the sequencer is FIRED and hands over a fire with the cue's entry in
its cause, the word's end time as cause time and the cue's boundary as fire boundary (R67). That the fire is left in
`handed` (log entry 26) and carries no lasting pattern (log entry 53) is the model's. Any other cue leaves no trace. -/
def Obligations.OccurrencesOfConditions : Prop :=
  (∀ (q : Sequencer) (e : Element),
    (∀ mask value, q.occurs (.pattern mask value) e = true ↔
      q.patternFlag = false ∧ ∀ c, chanBit mask c = true → chanBit e.levels c = chanBit value c) ∧
    (∀ set, q.occurs (.edge set .rising) e = true ↔
      ∃ c, chanBit set c = true ∧ chanBit q.levels c = false ∧ chanBit e.levels c = true) ∧
    (∀ set, q.occurs (.edge set .falling) e = true ↔
      ∃ c, chanBit set c = true ∧ chanBit q.levels c = true ∧ chanBit e.levels c = false) ∧
    (∀ set, q.occurs (.edge set .either) e = true ↔
      ∃ c, chanBit set c = true ∧ chanBit q.levels c ≠ chanBit e.levels c) ∧
    (∀ set, q.occurs (.glitch set) e = true ↔ ∃ c, chanBit set c = true ∧ chanBit e.glitch c = true) ∧
    (∀ ch high min max, q.occurs (.pulse ch high min max) e = true ↔
      chanBit q.levels ch = high ∧ chanBit e.levels ch ≠ high ∧
        ∃ t, vget q.lastChange ch = some t ∧ (min : Int) ≤ tdiff e.boundary t ∧
          (0 < max → tdiff e.boundary t ≤ (max : Int))) ∧
    (∀ entry, q.occurs (.cue entry) e = false) ∧ ∀ code, q.occurs (.unassigned code) e = false) ∧
  ∀ (s : State) (v : Vector Stage 4) (entry : Fin 24) (wordEnd b : StationTime), s.sequencer.stages = some v →
    let st := vget v s.sequencer.stage
    let taken := s.sequencer.state = .running ∧ s.sequencer.counts b = true ∧
      ∃ code, st.cond = .cue code ∧ (code.toNat = 31 ∨ code.toNat = entry.val)
    (¬ taken → s.seqCue entry wordEnd b = s) ∧
    (taken → s.sequencer.count + 1 < st.n →
      s.seqCue entry wordEnd b = { s with sequencer := { s.sequencer with count := s.sequencer.count + 1 } }) ∧
    (taken → s.sequencer.count + 1 = st.n → st.satisfiedFires = false → ∀ n : Fin 4,
      n.val = s.sequencer.stage.val + 1 →
      s.seqCue entry wordEnd b = { s with sequencer := { s.sequencer with
        stage := n, count := 0, patternFlag := false, entry := .atBoundary b
        timer := if (vget v n).timeout = 0 then none else some (after b ((vget v n).timeout * 256)) } }) ∧
    (taken → s.sequencer.count + 1 = st.n → st.satisfiedFires = true →
      ∃ f : Fire,
        s.seqCue entry wordEnd b = { s with
          sequencer := { s.sequencer with count := st.n, state := .fired, timer := none }
          mark := { s.mark with handed := some f } } ∧
        (∀ k, s.session.k = some k → f.seg = k) ∧ f.cause = .sequencer s.sequencer.stage false 4 (some entry) ∧
        f.causeTime = wordEnd ∧ f.boundary = b ∧ f.lasting = false)

/-! ## Decoder units and word memory -/

/-- The decoder units. Running (R96, R97): a stopped unit and one that is OFF take no element; another takes it by the
machine of its kind, and the arm boundary's sets its starting state and completes nothing. Each word carries its unit,
the session's present segment (R99, log entry 45), GLITCHED where a glitch of a channel its unit reads lies at or after
its start (R100), and UNDERSAMPLED as decided at ARM for UART and BMC, by the shortest time between two clock changes
within it for SPI and I2C; one that does raises UNDERSAMPLED_SEEN (R101, log entry 63). What the kinds complete. I2C
(R110): the ninth rise inside a transfer completes the byte word, ADDRESS for the first since the last START and DATA
otherwise, ACKED where the acknowledge is LOW, and then the ACK or NACK word with its value and flags; a fall of SDA
under a HIGH SCL is a START word, a rise of it a STOP word, each after the SHORT ERROR word of a byte in hand (R109,
R111). UART (R102-R105): WAIT_IDLE ends at an idle level; a start edge in HUNT; a bit taken at the first boundary at or
after its sample time, with the parity and the first stop bit it shows; the word at the last stop bit (BREAK where no
idle level was seen); one GAP word at its due time, the timer started at the stop bit or at the end of WAIT_IDLE, and
tested at the element that ends the frame too (log entry 32). SPI (R106-R108): a sampling edge while selected takes one
bit, the L-th completes the word; select going inactive and the resync gap end a SHORT word. BMC (R112-R115): intervals
form bits or a bit error, a preamble of 16 and its marker a SYNC word, eight bits a DATA word, an error an ERROR word,
idle an END word. -/
def Obligations.DecoderUnitsCompleteWords : Prop :=
  (∀ (d : Decoders) (p : Plan),
    (d.arm p).running = true ∧ (d.arm p).undersampledSeen = d.undersampledSeen ∧
    ∀ u, vget (d.arm p).units u = {
      cfg := some (vget p.decoders u)
      undersampled := match (vget p.decoders u).cfg with
        | .uart c => decide (c.bit16 < 64 * period p.general.rate)
        | .bmc c => decide (c.halfMin < 4 * period p.general.rate)
        | _ => false
      assembly := .fresh, levels := (vget d.units u).levels, lastGlitch := none }) ∧
  (∀ (s : State) (u : Fin 4) (e : Element), s.decoders.running = false → s.decElement u e = ([], s)) ∧
  (∀ (s : State) (u : Fin 4) (e : Element) (p : Plan) (k : Fin 8) (d : DecPart), s.decoders.running = true →
    s.session.active = some p → s.session.k = some k → (vget s.decoders.units u).cfg = some d →
    let x := vget s.decoders.units u
    let b := e.boundary
    let glitch :=
      if d.cfg.channels.any (chanBit e.glitch) then some b else x.lastGlitch.filter fun t => notAfter t b
    let word := fun (w : RawWord) => ({
      decoder := u, kind := w.kind, value := w.value, value2 := w.value2, start := w.start, stop := w.stop
      flags := {
        parity := w.parity, framing := w.framing, short := w.short, acked := w.acked
        undersampled := x.undersampled || match w.half with
          | some m => decide (m < 4 * (period p.general.rate : Int))
          | none => false
        glitched := match glitch with | some t => notAfter w.covers t | none => false }
      matched := none, seg := k } : Word)
    let took := fun (ws : List RawWord) (a : Assembly) =>
      s.decElement u e = (ws.map word, { s with decoders := { s.decoders with
        units := vset s.decoders.units u { x with assembly := a, levels := e.levels, lastGlitch := glitch }
        undersampledSeen := s.decoders.undersampledSeen || (ws.map word).any (·.flags.undersampled) } })
    (d.cfg = .off → s.decElement u e = ([], s)) ∧
    (∀ c, d.cfg = .uart c →
      let idle := chanBit e.levels c.ch == c.idleHigh
      (x.assembly = .fresh →
        took [] (.uart { phase := if idle then .hunt else .waitIdle false, gapStart := none })) ∧
      ∀ y, x.assembly = .uart y → took (y.step c b idle).1 (.uart (y.step c b idle).2)) ∧
    (∀ c, d.cfg = .spi c →
      (x.assembly = .fresh →
        took [] (.spi {
          sel := match c.select with
            | none => .none
            | some ch => if chanBit e.levels ch = c.activeHigh then .waitDeselect else .deselected
          count := 0, value := 0, value2 := 0, first := b, lastClock := b, half := { last := none, shortest := none } })) ∧
      ∀ y, x.assembly = .spi y →
        took (y.step c x.levels e.levels b).1 (.spi (y.step c x.levels e.levels b).2)) ∧
    (∀ scl sda, d.cfg = .i2c scl sda →
      (x.assembly = .fresh →
        took [] (.i2c { inside := false, addressNext := false, count := 0, value := 0, first := b
                        half := { last := none, shortest := none } })) ∧
      ∀ y, x.assembly = .i2c y →
        took (y.step scl sda x.levels e.levels b).1 (.i2c (y.step scl sda x.levels e.levels b).2)) ∧
    ∀ c, d.cfg = .bmc c →
      let moved := chanBit x.levels c.ch != chanBit e.levels c.ch
      (x.assembly = .fresh →
        took [] (.bmc { phase := .hunt 0 false 0, lastTransition := none, idleFound := false, halfPending := none })) ∧
      ∀ y, x.assembly = .bmc y → took (y.step c moved b).1 (.bmc (y.step c moved b).2)) ∧
  (∀ (h : HalfPeriod) (b t : StationTime), h.last = some t →
    h.change b = { last := some b, shortest := some (match h.shortest with
      | some m => min m (tdiff b t)
      | none => tdiff b t) }) ∧
  (∀ (x : I2cSt) (byte : Byte) (b : Fin 9 → StationTime) (nack : Bool), x.inside = true → x.count = 0 →
    let y := (List.finRange 8).foldl
      (fun (y : List RawWord × I2cSt) i =>
        let z := y.2.takeBit (byte.getLsbD (7 - i.val)) (b ⟨i.val, by omega⟩)
        (y.1 ++ z.1, z.2)) ([], x)
    let z := y.2.takeBit nack (b 8)
    y.1 = [] ∧ y.2.half = { last := some (b 0), shortest := none } ∧
      z.2.count = 0 ∧ z.2.addressNext = false ∧ z.2.inside = true ∧
      ∀ h : HalfPeriod, (I2cSt.takeBit { y.2 with half := h } nack (b 8)).1 =
        [{ rawWord (if x.addressNext then .address else .data) (byte.setWidth 16) (b 0) (b 8) with
            acked := !nack, half := h.shortest },
          { rawWord (if nack then .nack else .ack) (byte.setWidth 16) (b 8) (b 8) with
            covers := b 0, half := h.shortest }]) ∧
  (∀ (x : I2cSt) (scl sda : Chan) (old levels : ChanSet) (b : StationTime),
    let r := x.step scl sda old levels b
    let quiet := chanBit old scl = true ∧ chanBit levels scl = true
    let falls := quiet ∧ chanBit old sda = true ∧ chanBit levels sda = false
    let rises := quiet ∧ chanBit old sda = false ∧ chanBit levels sda = true
    let half := if chanBit old scl ≠ chanBit levels scl ∧ 0 < x.count then x.half.change b else x.half
    let cut := fun (l : List RawWord) =>
      (x.inside = false ∨ x.count = 0 → l = []) ∧
      (x.inside = true → 0 < x.count →
        l = [{ rawWord .error (x.value.setWidth 16) x.first b with short := true, half := x.half.shortest }])
    (falls → r.2.inside = true ∧ r.2.addressNext = true ∧ r.2.count = 0 ∧
      ∃ l, r.1 = l ++ [rawWord .start (if x.inside then 1 else 0) b b] ∧ cut l) ∧
    (rises → r.2.inside = false ∧ r.2.count = 0 ∧
      ∃ l, r.1 = l ++ (if x.inside then [rawWord .stop 0 b b] else []) ∧ cut l) ∧
    (¬ falls → ¬ rises →
      (x.inside = true → chanBit old scl = false → chanBit levels scl = true →
        r = I2cSt.takeBit { x with half := half } (chanBit levels sda) b) ∧
      (x.inside = false ∨ chanBit old scl = true ∨ chanBit levels scl = false → r = ([], { x with half := half })))) ∧
  (∀ (c : UartCfg) (b : StationTime) (idle : Bool),
    let gapDue := fun (t : StationTime) => after t (c.gap * c.bit16 / 16)
    (∀ (starts : Bool) (t : Option StationTime),
      UartSt.step { phase := .waitIdle starts, gapStart := t } c b idle =
        ([], if idle then { phase := .hunt, gapStart := if starts = true ∧ c.gap ≠ 0 then some b else none }
          else { phase := .waitIdle starts, gapStart := t })) ∧
    (∀ t : Option StationTime,
      let r := UartSt.step { phase := .hunt, gapStart := t } c b idle
      (∀ a, t = some a → notAfter (gapDue a) b = true → r.1 = [rawWord .gap 0 a (gapDue a)]) ∧
      ((∀ a, t = some a → notAfter (gapDue a) b = false) → r.1 = []) ∧
      r.2 = if idle then { phase := .hunt, gapStart := t.filter fun a => !notAfter (gapDue a) b }
        else { phase := .frame { start := b, next := 0, value := 0, ones := 0, parityBad := false
                                 firstStopBad := false, sawIdle := false }, gapStart := none }) ∧
    ∀ (f : UartFrame) (g : Option StationTime),
      let due := fun (i : Nat) => after f.start ((2 * i + 1) * c.bit16 / 32)
      let length := 1 + c.dataBits + (if c.parity = .none then 0 else 1) + if c.twoStops then 2 else 1
      let r := UartSt.step { phase := .frame f, gapStart := g } c b idle
      let data := decide (1 ≤ f.next ∧ f.next ≤ c.dataBits)
      let ones := f.ones + if idle then 1 else 0
      let taken : UartFrame := { f with
        next := f.next + 1
        sawIdle := f.sawIdle || idle
        value := if data && idle then f.value ||| BitVec.ofNat 16 (2 ^ (f.next - 1)) else f.value
        ones := if data then ones else f.ones
        parityBad :=
          if f.next = c.dataBits + 1 ∧ c.parity ≠ .none then ones % 2 == (if c.parity = .even then 1 else 0)
          else f.parityBad
        firstStopBad := if f.next + 2 = length ∧ c.twoStops = true then !idle else f.firstStopBad }
      (notAfter (due f.next) b = false →
        r = ([], { phase := .frame { f with sawIdle := f.sawIdle || idle }, gapStart := none })) ∧
      (notAfter (due f.next) b = true → f.next = 0 → idle = true → r = ([], { phase := .hunt, gapStart := none })) ∧
      (notAfter (due f.next) b = true → f.next + 1 < length → (1 ≤ f.next ∨ idle = false) →
        (notAfter (due (f.next + 1)) b = false → r = ([], { phase := .frame taken, gapStart := none })) ∧
        (c.dataBits ≤ 9 → r = UartSt.step { phase := .frame taken, gapStart := g } c b idle)) ∧
      (notAfter (due f.next) b = true → f.next + 1 = length → 1 ≤ f.next →
        let stop := due f.next
        let w := { rawWord .data f.value f.start stop with
          parity := f.parityBad, framing := !idle || f.firstStopBad }
        (idle = false → r =
          ([if f.sawIdle then w else rawWord .brk 0 f.start stop], { phase := .waitIdle true, gapStart := none })) ∧
        (idle = true → c.gap ≠ 0 → notAfter (gapDue stop) b = true →
          r = ([w, rawWord .gap 0 stop (gapDue stop)], { phase := .hunt, gapStart := none })) ∧
        (idle = true → c.gap = 0 ∨ notAfter (gapDue stop) b = false →
          r = ([w], { phase := .hunt, gapStart := if c.gap = 0 then none else some stop })))) ∧
  (∀ (x : SpiSt) (c : SpiCfg) (old levels : ChanSet) (b : StationTime),
    let r := x.step c old levels b
    let level := fun (ch : Option Chan) => match ch with | some ch => chanBit levels ch | none => false
    let changed := chanBit old c.clock ≠ chanBit levels c.clock
    let edge := changed ∧ chanBit levels c.clock = !c.falling
    let takes := c.select = none ∨
      ∃ ch, c.select = some ch ∧ chanBit levels ch = c.activeHigh ∧ (x.sel = .selected ∨ x.sel = .deselected)
    let pos := if c.lsbFirst then x.count else c.length - 1 - x.count
    let put := fun (v : BitVec 16) (ch : Option Chan) => if level ch then v ||| BitVec.ofNat 16 (2 ^ pos) else v
    let first := if x.count = 0 then b else x.first
    let half : HalfPeriod := if x.count = 0 then { last := some b, shortest := none } else x.half.change b
    let word := fun (v v2 : BitVec 16) (start : StationTime) (short : Bool) (h : HalfPeriod) =>
      { rawWord .data v start b with
        value2 := if c.dataIn.isSome then some v2 else none, short := short, half := h.shortest }
    (changed → r.2.lastClock = b) ∧ (¬ changed → r.2.lastClock = x.lastClock) ∧
    (edge → takes → x.count + 1 ≠ c.length →
      r.1 = [] ∧ r.2.count = x.count + 1 ∧ r.2.first = first ∧ r.2.value = put x.value c.dataOut ∧
        r.2.value2 = put x.value2 c.dataIn ∧ r.2.half = half) ∧
    (edge → takes → x.count + 1 = c.length →
      r.2.count = 0 ∧ r.1 = [word (put x.value c.dataOut) (put x.value2 c.dataIn) first false half]) ∧
    (changed → ¬ edge → takes →
      r.1 = [] ∧ r.2.count = x.count ∧ r.2.half = if x.count = 0 then x.half else x.half.change b) ∧
    (∀ ch, c.select = some ch → chanBit levels ch = c.activeHigh → x.sel = .waitDeselect →
      r.1 = [] ∧ r.2.count = x.count ∧ r.2.sel = .waitDeselect) ∧
    (∀ ch, c.select = some ch → chanBit levels ch = !c.activeHigh →
      r.2.sel = .deselected ∧ r.2.count = 0 ∧
        (x.sel = .selected → 0 < x.count →
          (changed → r.1 = [word x.value x.value2 x.first true (x.half.change b)]) ∧
          (¬ changed → r.1 = [word x.value x.value2 x.first true x.half])) ∧
        (x.sel ≠ .selected ∨ x.count = 0 → x.sel ≠ .none → r.1 = [])) ∧
    (c.select = none → ¬ changed →
      (0 < c.resync → 0 < x.count → (c.resync : Int) < tdiff b x.lastClock →
        r.2.count = 0 ∧ r.1 = [word x.value x.value2 x.first true x.half]) ∧
      (c.resync = 0 ∨ x.count = 0 ∨ tdiff b x.lastClock ≤ (c.resync : Int) → r = ([], x)))) ∧
  (∀ (x : BmcSt) (c : BmcCfg) (b : StationTime), x.lastTransition = none ∨ x.idleFound = true →
    x.step c false b = ([], x) ∧ x.step c true b = ([], { x with lastTransition := some b, idleFound := false })) ∧
  (∀ (x : BmcSt) (c : BmcCfg) (t b : StationTime), x.lastTransition = some t → x.idleFound = false →
    let n := tdiff b t
    let half := (c.halfMin : Int) ≤ n ∧ n ≤ (c.halfMax : Int)
    let full := ¬ half ∧ (c.fullMin : Int) ≤ n ∧ n ≤ (c.fullMax : Int)
    let moved := fun (z : List RawWord × BmcSt) => (z.1, { z.2 with lastTransition := some b, idleFound := false })
    let hunting := BmcPhase.hunt 0 false 0
    let error := fun (y : BmcByte) (stop : StationTime) =>
      { rawWord .error (if y.count = 0 then 0 else y.value.setWidth 16)
          (if y.count = 0 then x.halfPending.getD t else y.first) stop with
        short := decide (0 < y.count) || x.halfPending.isSome }
    (n ≤ (c.fullMax : Int) →
      x.step c false b = ([], x) ∧
      (half → x.halfPending = none → x.step c true b = moved ([], { x with halfPending := some t })) ∧
      (∀ s, half → x.halfPending = some s →
        x.step c true b = moved (BmcSt.takeBit { x with halfPending := none } true s b)) ∧
      (full → x.halfPending = none → x.step c true b = moved (x.takeBit false t b)) ∧
      ((¬ half ∧ ¬ full ∨ full ∧ x.halfPending ≠ none) →
        (x.step c true b).2 = { phase := hunting, lastTransition := some b, idleFound := false, halfPending := none } ∧
        (∀ m v p, x.phase = .hunt m v p → (x.step c true b).1 = []) ∧
        ∀ y, x.phase = .frame y → (x.step c true b).1 = [error y b])) ∧
    ((c.fullMax : Int) < n →
      (x.step c false b).2 = { phase := hunting, lastTransition := some t, idleFound := true, halfPending := none } ∧
      x.step c true b = moved (x.step c false b) ∧
      (∀ m v p, x.phase = .hunt m v p → (x.step c false b).1 = []) ∧
      ∀ y, x.phase = .frame y →
        (y.count = 0 → x.halfPending = none → (x.step c false b).1 = [rawWord .fin 0 t b]) ∧
        (0 < y.count ∨ x.halfPending ≠ none → (x.step c false b).1 = [error y t, rawWord .fin 0 t b]))) ∧
  ∀ (x : BmcSt) (v : Bool) (s b : StationTime),
    (∀ m last p, x.phase = .hunt m last p →
      (m = 0 → x.takeBit v s b = ([], { x with phase := .hunt 1 v s })) ∧
      (m ≠ 0 → v ≠ last → x.takeBit v s b = ([], { x with phase := .hunt (min (m + 1) 65535) v p })) ∧
      (v = last → 16 ≤ m → (x.takeBit v s b).1 = [rawWord .sync (BitVec.ofNat 16 m) p b] ∧
        ∃ y, (x.takeBit v s b).2 = { x with phase := .frame y } ∧ y.count = 0) ∧
      (m ≠ 0 → v = last → m < 16 → x.takeBit v s b = ([], { x with phase := .hunt 1 v s }))) ∧
    ∀ y, x.phase = .frame y →
      let value := (if y.count = 0 then (0 : BitVec 8) else y.value) ||| if v then BitVec.ofNat 8 (2 ^ y.count) else 0
      let first := if y.count = 0 then s else y.first
      (y.count + 1 ≠ 8 → x.takeBit v s b =
        ([], { x with phase := .frame { count := y.count + 1, value := value, first := first } })) ∧
      (y.count + 1 = 8 → (x.takeBit v s b).1 = [rawWord .data (value.setWidth 16) first b] ∧
        ∃ z, (x.takeBit v s b).2 = { x with phase := .frame z } ∧ z.count = 0)

/-- The word filter takes a word whole (R118, R119): it counts the word, the matched entry is the first enabled one whose
decoder, kind and field tests pass, and the word goes to that entry's destination with its number written, or to its
decoder's default destination with the entry absent. Where that entry carries the cue mark, and in no other case, the word
raises a cue to the sequencer, with the entry's number, the word's end time and its completing boundary, wherever the word
goes (R120). A word sent to a latch slot replaces the slot's word, sets NEW, and
counts an overrun, stopping at 65,535, and raises LATCH_OVERRUN where NEW was set; it is counted as latched, and nothing else
changes (R125). A word sent to DISCARD is counted and kept nowhere. -/
def Obligations.FirstMatchingEntryRoutes : Prop :=
  (∀ (s : State) (w : Word) (v : Vector FilterEntry 24), s.words.filters = some v →
    let s' : State := { s with words := { s.words with completed := s.words.completed + 1 } }
    let passes := fun (i : Fin 24) =>
      (vget v i).enabled = true ∧ (vget v i).decoders.getLsbD w.decoder.val = true ∧
        (vget v i).kinds.getLsbD w.kind.code = true ∧
        ∃ x, (if (vget v i).value2 then w.value2 else some w.value) = some x ∧
          match (vget v i).rule with
          | .range => (vget v i).v1 ≤ x ∧ x ≤ (vget v i).v2
          | .pair => x = (vget v i).v1 ∨ x = (vget v i).v2
          | .mask => ∀ n, (vget v i).v2.getLsbD n = true → x.getLsbD n = (vget v i).v1.getLsbD n
    (∀ i, passes i → (∀ j, j < i → ¬ passes j) →
      s.filterWord w = s'.routeTo (vget v i).dest { w with matched := some i } ∧
      s.cueOf w = (if (vget v i).cue then some i else none) ∧
      ∀ b, s.takeWord w b = if (vget v i).cue then (s.filterWord w).seqCue i w.stop b else s.filterWord w) ∧
    ((∀ i, ¬ passes i) →
      s.filterWord w = s'.routeTo (s.defaultDest w.decoder) { w with matched := none } ∧
      s.cueOf w = none ∧ ∀ b, s.takeWord w b = s.filterWord w)) ∧
  ∀ (s : State) (w : Word),
    (∀ (code : BitVec 4) (slot : Fin 8), code.toNat = slot.val →
      let old := vget s.words.latches slot
      ∃ latches, s.routeTo (.latch code) w = { s with words := { s.words with
          latches := latches, latched := s.words.latched + 1
          latchOverrunSeen := s.words.latchOverrunSeen || old.isNew } } ∧
        vget latches slot =
          { word := some w, isNew := true, overrun := if old.isNew then min (old.overrun + 1) 65535 else old.overrun } ∧
        ∀ j, j ≠ slot → vget latches j = vget s.words.latches j) ∧
    s.routeTo .discard w = { s with words := { s.words with discarded := s.words.discarded + 1 } }

/-- A word offered to a queue (R122, R132): one that began before its segment's base time is counted as trimmed at
completion and not stored; otherwise it is appended while there is room; a full queue in OVERWRITE mode with a capacity
above 0 gives up its oldest word for it, which counts a feed-missed word where the feed is enabled and that word was
unfed; otherwise it is counted as lost. The other queue and the latch slots keep what they hold. A word appended while
there is room moves the feed (R129): a QUIET one starts its timer and is COLLECTING, or DRAINING at once at a level of
1; a COLLECTING one whose unfed count reaches its level is DRAINING, its timer stopped; else nothing of the feed
changes. At an overwrite the feed first takes the removal: an unfed word given up raises FEED_MISSED (R132, R135), and a
COLLECTING feed left with no unfed word is QUIET, as is a DRAINING one with no returned frame; the word appended then
moves it (R129). -/
def Obligations.OfferedWordStored : Prop :=
  ∀ (s : State) (q r : QueueId) (w : Word),
    let x := s.words.queue q
    let t := s.offerWord q w
    let y := t.words.queue q
    let base := (s.header w.seg).base
    let moved := fun (f : Feed) (unfed : Nat) => ∀ c, f.cfg = some c →
      let level := [1, 4, 8, 16].getD c.levelCode.toNat 16
      (f.state = .quiet → level = 1 → y.feed.state = .draining ∧ y.feed.timer = none ∧ y.feed.returned = f.returned) ∧
      (f.state = .quiet → level ≠ 1 →
        y.feed = { f with state := .collecting, timer := some (after s.time (c.timeout * 4096)) }) ∧
      (f.state = .collecting → level ≤ unfed →
        y.feed.state = .draining ∧ y.feed.timer = none ∧ y.feed.returned = f.returned) ∧
      (f.state = .collecting → unfed < level → y.feed = f) ∧
      (f.state = .off ∨ f.state = .draining → y.feed = f)
    (r ≠ q → t.words.queue r = s.words.queue r) ∧ t.words.latches = s.words.latches ∧
    (earlier w.start base = true →
      y = x ∧ t.words.trimmedAtCompletion = s.words.trimmedAtCompletion + 1) ∧
    (earlier w.start base = false → x.words.length < x.capacity →
      y.words = x.words ++ [w] ∧ y.enqueued = x.enqueued + 1 ∧ y.fed = x.fed ∧ y.overwritten = x.overwritten ∧
        y.feedMissed = x.feedMissed ∧ t.words.feedMissedSeen = s.words.feedMissedSeen ∧
        moved x.feed (x.words.length + 1 - x.fed)) ∧
    (earlier w.start base = false → x.capacity ≤ x.words.length → x.overwrite = true → 0 < x.capacity →
      y.words = x.words.drop 1 ++ [w] ∧ y.enqueued = x.enqueued + 1 ∧ y.overwritten = x.overwritten + 1 ∧
        y.fed = x.fed - 1 ∧
        let missed := x.fed = 0 ∧ x.feed.state ≠ .off
        y.feedMissed = (if missed then x.feedMissed + 1 else x.feedMissed) ∧
        (t.words.feedMissedSeen = true ↔ s.words.feedMissedSeen = true ∨ missed) ∧
        moved
          (if missed ∧ x.words.length = 1 ∧
              (x.feed.state = .collecting ∨ x.feed.state = .draining ∧ x.feed.returned = [])
            then { x.feed with state := .quiet, timer := none } else x.feed)
          (x.words.length - (x.fed - 1))) ∧
    (earlier w.start base = false → x.capacity ≤ x.words.length → (x.overwrite = false ∨ x.capacity = 0) →
      y = x ∧ t.words.lost = s.words.lost + 1)
/-! ## Pod bus -/

/-- What a sender puts on DATA a receiver reads back (R139, R140, R143): the bits of a frame with a payload of at most
60 bytes, the receipt slot at either level, are scanned as one good frame, and its content spells the same kind, source,
destination, broadcast bit and payload. The receipt slot is the next bit once the stuffed region is in, the stuff bit of
a run that ends with the last CRC bit among it, and no error is found before. A frame that carries another CRC has its
error found at that same bit and not before, so that an error flag begins in the receipt slot (R145). -/
def Obligations.SentFrameIsReadBack : Prop :=
  ∀ (src : Station) (f : TxFrame) (slot : Bool) (stamp : StationTime), f.payload.length ≤ 60 →
    let content := contentBits src f
    ∃ body, scanFrame (stuffed (false :: content ++ beBits 16 (crc content).toNat) ++ slot :: List.replicate 5 true) =
        .good body ∧
      readContent stamp body =
        (f.kind.toNat, { src := src, dst := f.dst, bcast := f.bcast, stamp := stamp, payload := f.payload }) ∧
      ∀ x : BitVec 16,
        let region := stuffed (false :: content ++ beBits 16 x.toNat)
        (∀ n, n < region.length → scanFrame (region.take n) = .more false) ∧
          scanFrame region = if x = crc content then .more true else .error .crc

/-- What a good frame does whatever its kind (R141, R143, R151, R152, R160): a frame that is neither broadcast nor
addressed to this station, and a WORDS_NOTE in every case, marks its sender PRESENT with the presence timer set from the
stamp, unless it bears this station's own number, takes 1 off the score in NORMAL and CAUTIOUS with the link state
following, puts the line in WAIT, and does nothing else. -/
def Obligations.GoodFrameHeard : Prop :=
  ∀ (c : Instr) (f : RxFrame) (s : State), c.frame? = some f → s.canReceive = true →
    (s.isFor f = false ∨ c = .wordsNote f) →
    ∃ t, exec c s = .next t ∧
      t = { s with peers := { s.peers with peers := t.peers.peers }, bus := t.bus } ∧
      (∀ p, p ≠ f.src ∨ f.src = s.bus.own → t.peer p = s.peer p) ∧
      (f.src ≠ s.bus.own → t.peer f.src =
        { s.peer f.src with present := true, timer := some (after f.stamp (2 ^ 28)) }) ∧
      t.bus = { s.bus with
        score := if s.bus.link.takesPart then s.bus.score - 1 else s.bus.score
        link := if s.bus.link.takesPart then linkOfScore (s.bus.score - 1) else s.bus.link
        line := some .wait, recessiveRun := 0, rxBits := [], startStamp := none, errorFound := false, flagBits := 0 }

/-- A place of the transmit queue goes to a waiting source whose frame has the lowest kind, and among equal kinds to the
one that has waited longest (R147): the queue gains one frame, of that kind, in the queue's order. It holds wherever the
waiting frames are of their originators' kinds, which every step keeps. The waits are the model's numbers (log entry
10). Where that source is a feed (R130): its oldest returned frame is placed before any new one; a new WORDS_NOTE carries the
queue, the note sequence, the feed-missed count and the oldest unfed words, up to 3, which become fed, and the sequence goes
up by 1; when no unfed word and no returned frame is left the feed is QUIET. -/
def Obligations.PlaceGoesToLowestKind : Prop :=
  (∀ (s : State), s.KindInv → s.bus.hasRoom = true → s.waits ≠ [] →
    ∃ w ∈ s.waits, (∀ x ∈ s.waits, w.kind < x.kind ∨ (w.kind = x.kind ∧ w.since ≤ x.since)) ∧
      ∃ t e, exec .placeGranted s = .next t ∧ e.frame.kind.toNat = w.kind ∧
        t.bus = { s.bus with queue := insertFrame e s.bus.queue }) ∧
  ∀ (s : State) (q r : QueueId) (c : FeedCfg), s.bus.hasRoom = true →
    let x := s.words.queue q
    firstWaiting s.waits = some { kind := 14, since := x.feed.since, pick := .feed q } →
    x.feed.state = .draining → x.feed.cfg = some c →
    ∃ t, exec .placeGranted s = .next t ∧
      let y := t.words.queue q
      let placed := fun (f : TxFrame) =>
        t.bus = { s.bus with
          queue := insertFrame { id := s.order, origin := .feed q, frame := f } s.bus.queue }
      y.words = x.words ∧ y.feedMissed = x.feedMissed ∧ (r ≠ q → t.words.queue r = s.words.queue r) ∧
      (∀ f l, x.feed.returned = f :: l →
        placed f ∧ y.feed.returned = l ∧ y.fed = x.fed ∧ y.feed.seq = x.feed.seq) ∧
      (x.feed.returned = [] →
        placed (wordsNoteFrame q c.target x.feed.seq x.feedMissed ((x.words.drop x.fed).take 3)) ∧
          y.fed = x.fed + min 3 (x.words.length - x.fed) ∧ y.feed.seq = x.feed.seq + 1) ∧
      y.feed.state = (if y.feed.returned = [] ∧ y.words.length ≤ y.fed then .quiet else .draining)

/-- A due TIME_NOTE (R148, R163), built with the next sequence and the stamp of the last note sent: in DETACHED and
DUPLICATE it is dropped; a queued TIME_NOTE that is not on the wire is replaced in its place; while the queued one is on
the wire the new one waits at the peer table; where there is room it is placed. In a full queue it takes the place of
the last frame in the queue's order among those not on the wire and of a kind above its own (the most recently placed
one of the highest kind present), and that frame goes back to its originator; where no frame qualifies the note is
dropped. A returned note that still waited, and one that waited for the result of the note now replaced, go with it,
which is the model's choice (log entry 15). -/
def Obligations.DueTimeNotePlaced : Prop :=
  ∀ (s : State), s.peers.noteDue = true →
    let f := timeNoteFrame s.peers.nextSeq s.peers.lastSent
    let s' : State := { s with peers := { s.peers with noteDue := false, noteReturned := none } }
    let new : QEntry := { id := s.order, origin := .timeNote, frame := f }
    (s.bus.link.silent = true → exec .timeNoteDue s = .next s') ∧
    (∀ e, s.bus.link.silent = false → s.bus.queuedTimeNote = some e → s.bus.onWire ≠ some e.id →
      exec .timeNoteDue s = .next { s' with
        bus := { s.bus with queue := s.bus.queue.map fun x => if x.id = e.id then { x with frame := f } else x }
        peers := { s'.peers with noteWaiting := false } }) ∧
    (∀ e, s.bus.link.silent = false → s.bus.queuedTimeNote = some e → s.bus.onWire = some e.id →
      exec .timeNoteDue s = .next { s' with peers := { s'.peers with noteWaiting := true } }) ∧
    (s.bus.link.silent = false → s.bus.queuedTimeNote = none → s.bus.queue.length < 8 →
      exec .timeNoteDue s = .next { s' with
        bus := { s.bus with queue := insertFrame new s.bus.queue }, order := s.order + 1 }) ∧
    (s.bus.link.silent = false → s.bus.queuedTimeNote = none → 8 ≤ s.bus.queue.length →
      (∀ e ∈ s.bus.queue, e.frame.kind ≤ f.kind ∨ s.bus.onWire = some e.id) → exec .timeNoteDue s = .next s') ∧
    ∀ l e r, s.bus.link.silent = false → s.bus.queuedTimeNote = none → s.bus.queue = l ++ e :: r →
      8 ≤ s.bus.queue.length → (∀ x ∈ l ++ r, x.id ≠ e.id) → f.kind < e.frame.kind → s.bus.onWire ≠ some e.id →
      (∀ x ∈ r, x.frame.kind ≤ f.kind ∨ s.bus.onWire = some x.id) →
      exec .timeNoteDue s = .next (State.returnFrame { s' with
        bus := { s.bus with queue := insertFrame new (l ++ r) }, order := s.order + 1 } e)

/-- The result of an own frame at its last end bit (R144, R150): the frame leaves the queue and the line enters WAIT.
SENT takes 1 off the score, UNHEARD changes no score. At the originators: a TIME_NOTE SENT keeps its stamp and sequence
as those of the last note sent, and a note that waited for either result is placed then, after UNHEARD with the sequence
and stamp as they were (R148, R163); a part of an ask's reply SENT counts for its entry, UNHEARD ends its entry,
withdraws its other parts (R177) and drops those that were returned (log entry 68); a view ask SENT sets its lane's
deadline 2^23 ticks on, UNHEARD fails the lane with NO LINK (R190), told while another lane is still to come; a feed's
frame (R131), and that of every other originator, does nothing more. The number of a frame is the model's (log entry
10). -/
def Obligations.OwnFrameResults : Prop :=
  ∀ (s : State) (e : QEntry) (stamp : StationTime), s.bus.wireFrame = some e → s.bus.link.takesPart = true →
    let left := s.bus.queue.filter fun x => s.bus.onWire != some x.id
    let bus := fun (n : Nat) (l : LinkState) => { s.bus with
      queue := left
      onWire := none, score := n, link := l, line := some .wait, recessiveRun := 0, rxBits := [], startStamp := none
      errorFound := false, flagBits := 0, dtxDominant := false }
    let sentBus := bus (s.bus.score - 1) (linkOfScore (s.bus.score - 1))
    let unheardBus := bus s.bus.score s.bus.link
    (e.origin = .markUnit ∨ e.origin = .rollCall ∨ e.origin = .session ∨ (∃ q, e.origin = .feed q) ∨
        e.origin = .askRefusal ∨ e.origin = .askStatus ∨ e.origin = .viewStop ∨ e.origin = .viewNote →
      exec (.frameSent stamp) s = .next { s with bus := sentBus } ∧
        exec .frameUnheard s = .next { s with bus := unheardBus }) ∧
    (e.origin = .timeNote → s.peers.noteWaiting = false →
      exec (.frameSent stamp) s = .next { s with
        bus := sentBus, peers := { s.peers with lastSent := some stamp, nextSeq := s.peers.nextSeq + 1 } } ∧
      exec .frameUnheard s = .next { s with bus := unheardBus }) ∧
    (e.origin = .timeNote → s.peers.noteWaiting = true → s.bus.score ≤ 223 → s.bus.queue.length ≤ 8 →
      (∀ x ∈ s.bus.queue, x.origin = .timeNote → x.id = e.id) →
      exec (.frameSent stamp) s = .next { s with
        bus := { sentBus with
          queue := insertFrame { id := s.order, origin := .timeNote
                                 frame := timeNoteFrame (s.peers.nextSeq + 1) (some stamp) } left }
        peers := { s.peers with
          lastSent := some stamp, nextSeq := s.peers.nextSeq + 1, noteWaiting := false, noteReturned := none }
        order := s.order + 1 }) ∧
    (e.origin = .timeNote → s.peers.noteWaiting = true → s.bus.queue.length ≤ 8 →
      (∀ x ∈ s.bus.queue, x.origin = .timeNote → x.id = e.id) →
      exec .frameUnheard s = .next { s with
        bus := { unheardBus with
          queue := insertFrame { id := s.order, origin := .timeNote
                                 frame := timeNoteFrame s.peers.nextSeq s.peers.lastSent } left }
        peers := { s.peers with noteWaiting := false, noteReturned := none }
        order := s.order + 1 }) ∧
    (∀ id, e.origin = .askPart id →
      exec (.frameSent stamp) s = .next { s with
        bus := sentBus
        asks := { s.asks with
          table := s.asks.table.map fun x => if x.id = id then { x with sent := x.sent + 1 } else x } } ∧
      ((∀ x ∈ s.asks.table, x.id ≠ id) → exec .frameUnheard s = .next { s with bus := unheardBus }) ∧
      ((∃ x ∈ s.asks.table, x.id = id) → s.view.pass = none →
        exec .frameUnheard s = .next { s with
          bus := { unheardBus with queue := left.filter fun x => x.origin != .askPart id }
          asks := { s.asks with
            table := s.asks.table.filter fun x => x.id != id
            returned := s.asks.returned.filter fun h => h.origin != .askPart id } })) ∧
    ∀ (n m : Fin 16) (x y : Fetch) (pass : Pass), e.origin = .viewAsk (laneTag s.view.generation n) →
      vget s.view.fetch n = some x → x.state = .pending → s.view.pass = some pass → pass.zero.isSome = true →
      n ≠ m → (vget pass.lanes m).used = true → vget s.view.fetch m = some y →
      (y.state = .waiting ∨ y.state = .pending) →
      exec (.frameSent stamp) s = .next { s with
        bus := sentBus
        view := { s.view with
          fetch := vset s.view.fetch n (some { x with deadline := some (after s.time (2 ^ 23)) }) } } ∧
      exec .frameUnheard s = .next { s with
        bus := unheardBus
        view := { s.view with
          fetch := vset s.view.fetch n
            (some { x with state := .failed, banner := some .noLink, deadline := none, reaskAt := none }) } }

/-- An error in a frame (R144, R145, R151, R152). An own-frame error takes the frame off the queue and adds 8 to the
score, stopping at 255; one in a received frame adds 1. While the new score is below 224 the link state follows it, the
line stays in FRAME, and a station that was NORMAL drives its flag of 8 bits, one that was CAUTIOUS none; an own frame's
originator is told first (log entry 62): a reply part ends its entry, withdraws the entry's other parts (R177) and drops
those returned (log entry 68); a view ask fails its lane with NO LINK (R190), told while another lane is still to come;
a TIME_NOTE is dropped, its sequence and stamp unused, and one that waited for its result is placed (R148); any other
frame is dropped. A score that reaches 224 detaches the station (R154): the link is DETACHED with the score held and the
rejoin timer set, every frame leaves the queue as SPOILED, so that a reply part in it ends its entry, no view ask waits,
DATA and MARK are not driven, and a due ROLL_CALL and TIME_NOTE are dropped. An error in a frame received in DETACHED
restarts the rejoin timer (R154), and in DETACHED and DUPLICATE it changes no score and drives no flag (R145, R151). -/
def Obligations.FrameErrorsScored : Prop :=
  (∀ (s : State) (e : QEntry), s.bus.link.takesPart = true → s.bus.wireFrame = some e →
    let n := min 255 (s.bus.score + 8)
    let left := s.bus.queue.filter fun x => s.bus.onWire != some x.id
    let bus := { s.bus with
      queue := left, onWire := none, score := n, link := linkOfScore n, line := some .frame, rxBits := []
      startStamp := none, errorFound := true, flagBits := if s.bus.link = .normal then 8 else 0, dtxDominant := false }
    (n < 224 →
      (e.origin = .markUnit ∨ e.origin = .rollCall ∨ e.origin = .session ∨ (∃ q, e.origin = .feed q) ∨
          e.origin = .askRefusal ∨ e.origin = .askStatus ∨ e.origin = .viewStop ∨ e.origin = .viewNote ∨
          e.origin = .timeNote ∧ s.peers.noteWaiting = false →
        exec .frameSpoiled s = .next { s with bus := bus }) ∧
      (e.origin = .timeNote → s.peers.noteWaiting = true → s.bus.queue.length ≤ 8 →
        (∀ x ∈ s.bus.queue, x.origin = .timeNote → x.id = e.id) →
        exec .frameSpoiled s = .next { s with
          bus := { bus with
            queue := insertFrame { id := s.order, origin := .timeNote
                                   frame := timeNoteFrame s.peers.nextSeq s.peers.lastSent } left }
          peers := { s.peers with noteWaiting := false, noteReturned := none }
          order := s.order + 1 }) ∧
      (∀ id, e.origin = .askPart id →
        ((∀ x ∈ s.asks.table, x.id ≠ id) → exec .frameSpoiled s = .next { s with bus := bus }) ∧
        ((∃ x ∈ s.asks.table, x.id = id) → s.view.pass = none →
          exec .frameSpoiled s = .next { s with
            bus := { bus with queue := left.filter fun x => x.origin != .askPart id }
            asks := { s.asks with
              table := s.asks.table.filter fun x => x.id != id
              returned := s.asks.returned.filter fun h => h.origin != .askPart id } })) ∧
      ∀ (i j : Fin 16) (x y : Fetch) (pass : Pass), e.origin = .viewAsk (laneTag s.view.generation i) →
        vget s.view.fetch i = some x → x.state = .pending → s.view.pass = some pass → pass.zero.isSome = true →
        i ≠ j → (vget pass.lanes j).used = true → vget s.view.fetch j = some y →
        (y.state = .waiting ∨ y.state = .pending) →
        exec .frameSpoiled s = .next { s with
          bus := bus
          view := { s.view with
            fetch := vset s.view.fetch i
              (some { x with state := .failed, banner := some .noLink, deadline := none, reaskAt := none }) } }) ∧
    (224 ≤ n → ∃ t, exec .frameSpoiled s = .next t ∧ t.bus.link = .detached ∧ t.bus.score = n ∧ t.bus.queue = [] ∧
      t.bus.onWire = none ∧ t.bus.dtxDominant = false ∧ t.bus.flagBits = 0 ∧ t.mtxLow = false ∧
      t.bus.line = some .frame ∧ t.bus.errorFound = true ∧ t.bus.rejoin = some (after s.time (2 ^ 26)) ∧
      t.view.asks = [] ∧ t.peers = { s.peers with rollDue := none, noteWaiting := false, noteReturned := none } ∧
      ∀ x ∈ s.bus.queue, x = e ∨ x.id ≠ e.id → ∀ id, x.origin = .askPart id →
        ∀ y ∈ t.asks.table, y.own = false → y.id ≠ id)) ∧
  (∀ (s : State), s.bus.link.silent = true → s.canReceive = true →
    exec .frameReceiveError s = .next { s with bus := { s.bus with
      line := some .frame, rxBits := [], startStamp := none, errorFound := true, flagBits := 0, dtxDominant := false
      rejoin := if s.bus.link = .detached then some (after s.time (2 ^ 26)) else s.bus.rejoin } }) ∧
  ∀ (s : State), s.bus.link.takesPart = true → s.canReceive = true →
    let n := min 255 (s.bus.score + 1)
    (n < 224 →
      ∃ t, exec .frameReceiveError s = .next t ∧ t = { s with bus := t.bus } ∧
        t.bus.score = n ∧ t.bus.link = linkOfScore n ∧
        t.bus.queue = s.bus.queue ∧ t.bus.line = some .frame ∧ t.bus.errorFound = true ∧
        t.bus.flagBits = if s.bus.link = .normal then 8 else 0) ∧
    (224 ≤ n →
      ∃ t, exec .frameReceiveError s = .next t ∧ t.bus.link = .detached ∧
        t.bus.score = n ∧ t.bus.queue = [] ∧ t.bus.onWire = none ∧
        t.bus.dtxDominant = false ∧ t.bus.flagBits = 0 ∧ t.mtxLow = false ∧
        t.bus.rejoin = some (after s.time (2 ^ 26)) ∧ t.peers.rollDue = none ∧ t.peers.noteReturned = none)

/-- The line states (R141, R145, R155), and joining and rejoining (R153, R154, R161): each command that moves them, with
what it leaves; a station that is JOINING counts the bit that ends a break; a join and a rejoin make a ROLL_CALL due, not
marked as an answer. -/
def Obligations.LineAndLinkStates : Prop :=
  (∀ s : State, s.bus.line = some .wait →
    exec .busFree s = .next { s with bus := { s.bus with line := some .free, recessiveRun := 8 } }) ∧
  (∀ (s : State) (e : QEntry) (rest : List QEntry), s.bus.line = some .free → s.bus.queue = e :: rest →
    s.bus.link.takesPart = true → s.bus.onWire = none →
    exec (.transmitStart true) s = .next { s with bus := { s.bus with
      line := some .frame, onWire := some e.id, dtxDominant := true, rxBits := [], errorFound := false
      flagBits := 0 } } ∧
    exec (.transmitStart false) s = .next { s with bus := { s.bus with
      line := some .frame, onWire := none, dtxDominant := false, rxBits := [], errorFound := false
      flagBits := 0 } }) ∧
  (∀ s : State, s.bus.line = some .frame → s.bus.errorFound = true → s.bus.link ≠ .joining →
    exec .errorSignallingEnd s = .next { s with bus := { s.bus with
      line := some .wait, recessiveRun := 0, rxBits := [], startStamp := none, errorFound := false, flagBits := 0
      dtxDominant := false } }) ∧
  (∀ s : State, s.bus.inBreak = true → s.bus.link ≠ .joining →
    exec .breakEnd s = .next { s with bus := { s.bus with
      line := some .wait, recessiveRun := 0, rxBits := [], startStamp := none, errorFound := false, flagBits := 0
      inBreak := false, dominantRun := 0 } }) ∧
  (∀ s : State, s.bus.inBreak = true → s.bus.link = .joining →
    exec .breakEnd s = .next { s with bus := { s.bus with
      line := none, recessiveRun := 0, rxBits := [], startStamp := none, errorFound := false, flagBits := 0
      inBreak := false, dominantRun := 0, joinCount := 1 } }) ∧
  (∀ s : State, s.bus.link = .joining → s.bus.inBreak = false → s.peers.rollDue = none → s.bus.rollQueued = false →
    exec .joinComplete s = .next { s with
      bus := { s.bus with link := .normal, score := 0, line := some .free, joinCount := 20 }
      peers := { s.peers with rollDue := some { since := s.order, answer := false } }
      order := s.order + 1 }) ∧
  ∀ (s : State) (e : StationTime), s.bus.link = .detached → s.bus.rejoin = some e → notAfter e s.time = true →
    s.peers.rollDue = none → s.bus.rollQueued = false →
    exec .rejoinTimerExpiry s = .next { s with
      bus := { s.bus with link := .normal, score := 0, rejoin := none }
      peers := { s.peers with lastSent := none, rollDue := some { since := s.order, answer := false } }
      order := s.order + 1 }

/-- A bus break (R155, R49, R131, R192): a running session is ABORTED, the transmit queue is cleared, each feed loses its
returned frames and keeps its words, the ask service is emptied, the pass in hand is abandoned, the score is 0, and CAUTIOUS
and DETACHED become NORMAL; station time, the peers' records, both plans, the view plan and the record memory are kept. A
station that leaves DETACHED rejoins: its rejoin timer is dropped, a ROLL_CALL that is no answer is due, and the stamp of its
last TIME_NOTE is forgotten (R154, R161, R163). A TIME_NOTE that waited for the result of the one on the wire is placed into
the emptied queue (log entry 16). Told where no offer of the tick still waits for its element (log entry 52). -/
def Obligations.BusBreakClears : Prop :=
  ∀ (s : State), s.bus.inBreak = false → s.store.offers = [] →
    ∃ t, exec .busBreak s = .next t ∧
      t.bus.inBreak = true ∧ t.bus.onWire = none ∧ t.bus.score = 0 ∧ t.bus.dtxDominant = false ∧
      t.bus.link = (if s.bus.link = .cautious ∨ s.bus.link = .detached then .normal else s.bus.link) ∧
      t.bus.line = (if s.bus.link = .joining then none else some .brk) ∧ t.asks = AskService.reset ∧
      t.view.pass = none ∧ (∀ n, vget t.view.fetch n = none) ∧ t.view.asks = [] ∧ t.view.stops = s.view.stops ∧
      t.view.lanes = s.view.lanes ∧ t.view.window = s.view.window ∧ t.view.buffer = s.view.buffer ∧
      t.time = s.time ∧ t.peers.peers = s.peers.peers ∧ t.session.draft = s.session.draft ∧
      t.session.active = s.session.active ∧
      t.session.k = s.session.k ∧ t.store.mem = s.store.mem ∧ t.words.latches = s.words.latches ∧
      (∀ q, (t.words.queue q).words = (s.words.queue q).words ∧ (t.words.queue q).feed.returned = []) ∧
      (s.session.state.runs = true → s.store.current.isSome = true →
        t.session.state = .aborted ∧ t.store.current = none ∧ t.mark.state = .off ∧ t.sequencer.state = .stopped) ∧
      (s.session.state.runs = false →
        t.session = s.session ∧ t.store = s.store ∧ t.mark = s.mark ∧ t.sequencer = s.sequencer) ∧
      (s.peers.noteWaiting = false → t.bus.queue = []) ∧
      (s.peers.noteWaiting = false → s.bus.link ≠ .detached → t.peers = s.peers ∧ t.bus.rejoin = s.bus.rejoin) ∧
      (s.peers.noteWaiting = false → s.bus.link = .detached →
        t.bus.rejoin = none ∧
          ∃ r, t.peers = { s.peers with lastSent := none, rollDue := some r } ∧ r.answer = false ∧
            ∀ x, s.peers.rollDue = some x → r.since = x.since) ∧
      (s.peers.noteWaiting = true → s.bus.link.silent = false →
        t.peers = { s.peers with noteWaiting := false, noteReturned := none } ∧
          ∃ id, t.bus.queue =
            [{ id := id, origin := .timeNote, frame := timeNoteFrame s.peers.nextSeq s.peers.lastSent }])

/-! ## Peers and station time -/

/-- A TIME_NOTE from a peer (R164, R165): the chain takes its sequence and start-edge stamp in every case; where the
chain held the sequence before it and the note carries a previous stamp, that stamp and the chain's stamp are an anchor,
which becomes current, and base too where none was held or where it lies 2^20 ticks or more after the base anchor
(however many: that a very large positive span moves the base like any other is the model's reading, log entry 57);
otherwise the anchors stay. The other peers, and everything but the good receipt, stay as they are. -/
def Obligations.TimeNoteFormsAnchor : Prop :=
  ∀ (f : RxFrame) (s : State), s.Takes f → f.src ≠ s.bus.own → f.payload.length = 8 →
    ∃ t, exec (.timeNote f) s = .next t ∧
      t = { s.takeGood f with peers := { s.peers with peers := t.peers.peers } } ∧
      (∀ p, p ≠ f.src → t.peer p = s.peer p) ∧
      let old := s.peer f.src
      let new := t.peer f.src
      let anchored := fun (c : Chain) =>
        c.seq = byteAt f.payload 0 - 1 ∧ (byteAt f.payload 1).getLsbD 0 = true
      new.present = true ∧ new.chain = some { seq := byteAt f.payload 0, stamp := f.stamp } ∧
        new.details = old.details ∧ new.lastFire = old.lastFire ∧
        ((∀ c, old.chain = some c → ¬ anchored c) →
          new.current = old.current ∧ new.base = old.base ∧ new.skew = old.skew ∧ new.skewValid = old.skewValid) ∧
        ∀ c, old.chain = some c → anchored c →
          let a : Anchor := { remote := BitVec.ofNat 48 (field f.payload 2 6), loc := c.stamp }
          new.current = some a ∧
            (old.current = none → new.base = some a ∧ new.skew = old.skew ∧ new.skewValid = old.skewValid) ∧
            ∀ b, old.current.isSome = true → old.base = some b →
              (tdiff a.remote b.remote < 2 ^ 20 →
                new.base = some b ∧ new.skew = old.skew ∧ new.skewValid = old.skewValid) ∧
              (2 ^ 20 ≤ tdiff a.remote b.remote →
                let dR := tdiff a.remote b.remote
                let raw := ((tdiff a.loc b.loc - dR) * 2 ^ 24).tdiv dR
                let k := max (-8192) (min 8192 raw)
                new.base = some a ∧ new.skewValid = true ∧
                  new.skew = (if old.skewValid then (3 * old.skew + k).tdiv 4 else k) ∧
                  new.drift = (old.drift || decide (raw < -8192) || decide (8192 < raw)))

/-- A ROLL_CALL from a peer (R162): one from an ABSENT peer stores its details and makes an answer due; one from a PRESENT
peer replaces the details, and without the answer mark clears the chain, the anchors and the skew, keeping last fire and
DRIFT; one that bears this station's own number puts it in DUPLICATE, with the queue emptied (R154). -/
def Obligations.RollCallTaken : Prop :=
  ∀ (f : RxFrame) (s : State) (answer : Bool) (d : RollDetails), s.Takes f →
    readRollCall f.payload = some (answer, d) →
    (f.src ≠ s.bus.own → ∃ t, exec (.rollCall f) s = .next t ∧ (∀ p, p ≠ f.src → t.peer p = s.peer p) ∧
      (t.peer f.src).present = true ∧ (t.peer f.src).details = some d ∧
      (t.peer f.src).lastFire = (s.peer f.src).lastFire ∧ (t.peer f.src).drift = (s.peer f.src).drift ∧
      ((s.peer f.src).present = false → s.peers.rollDue = none → s.bus.rollQueued = false →
        t.peers.rollDue = some { since := s.order, answer := true }) ∧
      ((s.peer f.src).present = true → t.peers.rollDue = s.peers.rollDue ∧
        (answer = true → (t.peer f.src).chain = (s.peer f.src).chain ∧ (t.peer f.src).current = (s.peer f.src).current ∧
          (t.peer f.src).skew = (s.peer f.src).skew) ∧
        (answer = false → (t.peer f.src).chain = none ∧ (t.peer f.src).current = none ∧ (t.peer f.src).base = none ∧
          (t.peer f.src).skew = 0 ∧ (t.peer f.src).skewValid = false))) ∧
    (f.src = s.bus.own → s.bus.link ≠ .duplicate →
      ∃ t, exec (.rollCall f) s = .next t ∧ t.bus.link = .duplicate ∧ t.bus.queue = [] ∧ t.bus.rejoin = none ∧
        t.peers.rollDue = none ∧ t.peers.peers = s.peers.peers ∧ t.mtxLow = false)

/-- A MARK_NOTE from a peer is that peer's last fire, and fills the absent peer number of a MARK cause in the triggered
segment it names, and no other cause; one that names no segment from 0 to 7 is the last fire alone (R91). A presence
timer that expires makes its peer ABSENT with everything but DRIFT cleared (R160), and the ask service keeps nothing for
it (R180). That every frame of the ask service to it that is not on the wire is withdrawn, refusals and status parts
among them, is the model's reading (log entry 29). -/
def Obligations.MarkNotesAndAbsence : Prop :=
  (∀ (f : RxFrame) (s : State) (k : Fin 8), s.Takes f → f.src ≠ s.bus.own → f.payload.length = 10 →
    (byteAt f.payload 0).toNat = k.val →
    ∃ t, exec (.markNote f) s = .next t ∧
      t = { s.takeGood f with
        peers := { s.peers with peers := t.peers.peers }
        store := { s.store with headers := t.store.headers } } ∧
      (t.peer f.src).lastFire =
        some { seg := byteAt f.payload 0, stamp := BitVec.ofNat 48 (field f.payload 1 6) } ∧
      (t.peer f.src).current = (s.peer f.src).current ∧ (∀ p, p ≠ f.src → t.peer p = s.peer p) ∧
      (∀ j, j ≠ k → t.header j = s.header j) ∧
      ((s.header k).trigTime.isSome = true → (s.header k).cause = some (.mark none) →
        t.header k = { s.header k with cause := some (.mark (some f.src)) }) ∧
      (((s.header k).trigTime = none ∨ (s.header k).cause ≠ some (.mark none)) → t.header k = s.header k)) ∧
  (∀ (f : RxFrame) (s : State), s.Takes f → f.src ≠ s.bus.own → f.payload.length = 10 →
    7 < (byteAt f.payload 0).toNat →
    ∃ t, exec (.markNote f) s = .next t ∧
      t = { s.takeGood f with peers := { s.peers with peers := t.peers.peers } } ∧
      t.peer f.src = { (s.takeGood f).peer f.src with
        lastFire := some { seg := byteAt f.payload 0, stamp := BitVec.ofNat 48 (field f.payload 1 6) } } ∧
      ∀ p, p ≠ f.src → t.peer p = s.peer p) ∧
  ∀ (s : State) (p : Station) (e : StationTime), (s.peer p).present = true → (s.peer p).timer = some e →
    notAfter e s.time = true →
    ∃ t, exec (.presenceTimeout p) s = .next t ∧ t.peer p = { Peer.empty with drift := (s.peer p).drift } ∧
      (∀ q, q ≠ p → t.peer q = s.peer q) ∧
      (∀ x ∈ t.asks.table, x.own = true ∨ x.asker ≠ p) ∧ (∀ r ∈ t.asks.refusals, r.asker ≠ p) ∧
      (∀ r ∈ t.asks.status, r.asker ≠ p) ∧
      ∀ x ∈ t.bus.queue, x.origin.isAsk = true → x.frame.dst = p → s.bus.onWire = some x.id

/-- Forward conversion (R167): local = La + d + q, where d is the signed difference from the anchor's remote time and q
is floor((d x k + 2^23) / 2^24); at the anchor it gives La; and for a skew within 8,192 it never reverses the order of two
remote times. -/
def Obligations.ForwardConversion : Prop :=
  ∀ (a : Anchor) (k : Int),
    (∀ t, forward a k t = a.loc +
      BitVec.ofInt 48 (tdiff t a.remote + (tdiff t a.remote * k + 2 ^ 23) / 2 ^ 24)) ∧
    forward a k a.remote = a.loc ∧
    (-8192 ≤ k → k ≤ 8192 → ∀ d1 d2 : Int, d1 ≤ d2 →
      d1 + (d1 * k + 2 ^ 23) / 2 ^ 24 ≤ d2 + (d2 * k + 2 ^ 23) / 2 ^ 24)

/-! ## Ask service -/

/-- A REDUCE_ASK or WORDS_ASK from another station (R170): it overwrites in place a WAITING entry of the same asker and
tag; it takes the end of the order in place of a SERVING one, which is abandoned; a new one takes the end of the order
while the table holds fewer than 8; otherwise a BUSY refusal of its kind is made for its asker, in place of an older one. -/
def Obligations.AskTaken : Prop :=
  ∀ (words : Bool) (f : RxFrame) (s : State), s.Takes f → f.src ≠ s.bus.own → f.payload.length = 17 →
    ∃ t e, exec (if words then .wordsAsk f else .reduceAsk f) s = .next t ∧
      (e.asker = f.src ∧ e.own = false ∧ e.tag = byteAt f.payload 0 ∧ e.words = words ∧ e.serving = false ∧
        e.seg = byteAt f.payload 1 ∧ e.index = byteAt f.payload 2 ∧
        e.start = BitVec.ofNat 48 (field f.payload 3 6) ∧ e.w = max 1 (field f.payload 9 4) ∧
        e.k = max (-8192) (min 8192 (readSigned16 f.payload 13)) ∧ e.columns = field f.payload 15 2) ∧
      let same := fun x => x.own = false ∧ x.asker = f.src ∧ x.tag = byteAt f.payload 0
      (∀ l x r, s.asks.table = l ++ x :: r → same x → (∀ y ∈ l ++ r, ¬ same y ∧ y.id ≠ x.id) → x.serving = false →
        t.asks.table = l ++ { e with id := x.id } :: r ∧ t.asks.refusals = s.asks.refusals) ∧
      (∀ l x r, s.asks.table = l ++ x :: r → same x → (∀ y ∈ l ++ r, ¬ same y ∧ y.id ≠ x.id) → x.serving = true →
        t.asks.table = l ++ r ++ [e] ∧ t.asks.refusals = s.asks.refusals ∧
        ∀ y ∈ t.bus.queue, y.origin = .askPart x.id → s.bus.onWire = some y.id) ∧
      ((∀ y ∈ s.asks.table, ¬ same y) → s.asks.table.length < 8 →
        t.asks.table = s.asks.table ++ [e] ∧ t.asks.refusals = s.asks.refusals) ∧
      ((∀ y ∈ s.asks.table, ¬ same y) → 8 ≤ s.asks.table.length →
        t.asks.table = s.asks.table ∧
        t.asks.refusals = (s.asks.refusals.filter fun r => !(r.busy && r.asker == f.src)) ++
          [{ asker := f.src, tag := byteAt f.payload 0, busy := true
             held := { since := s.order, origin := .askRefusal
                       frame := (emptyPart (byteAt f.payload 0) words .busy 0 0).frame f.src } }])

/-- A STATUS_ASK from another station makes one pending status reply for its asker and selector, and none where one is
pending already (R181). A STOP removes the entry with that asker and tag, and a pending BUSY frame for it, withdrawing
the entry's frames that are not on the wire; every other entry stays (R179). When the place goes to a status reply not
yet composed, it is composed whole and its first part placed, with outcome OK and the part's index: a SUMMARY of five
parts with the contents R182 and R204 list, which clears the activity mask and every sticky flag, each peer's DRIFT
among them; a LATCHES of four parts with two slots each, which clears NEW and leaves words and overrun counts (R126,
R183); any other selector one frame with outcome RANGE. The bytes of absent items are free values (log entry 34), and
bit n of a peer's bank bits stands for bank n (log entry 70). -/
def Obligations.StatusAskAndStop : Prop :=
  (∀ (f : RxFrame) (s : State), s.Takes f → f.payload.length = 1 →
    (f.src ≠ s.bus.own → ∃ t, exec (.statusAsk f) s = .next t ∧
      let sel := if byteAt f.payload 0 = 0 then Selector.summary
        else if byteAt f.payload 0 = 1 then .latches else .other
      t = { s.takeGood f with order := t.order, asks := { s.asks with status := t.asks.status } } ∧
      ((∃ r ∈ s.asks.status, r.asker = f.src ∧ r.selector = sel) → t.asks.status = s.asks.status) ∧
      ((∀ r ∈ s.asks.status, ¬ (r.asker = f.src ∧ r.selector = sel)) →
        t.asks.status = s.asks.status ++ [{ asker := f.src, selector := sel, since := s.order, composed := none }])) ∧
    ∃ t, exec (.stop f) s = .next t ∧
      let named := fun x => x.own = false ∧ x.asker = f.src ∧ x.tag = byteAt f.payload 0
      t.asks.refusals =
        (s.asks.refusals.filter fun r => !(r.busy && r.asker == f.src && r.tag == byteAt f.payload 0)) ∧
      ((∀ x ∈ s.asks.table, ¬ named x) → t.asks.table = s.asks.table ∧ t.bus = (s.takeGood f).bus) ∧
      (∀ x ∈ s.asks.table, named x → (∀ y ∈ s.asks.table, named y → y = x) →
        (∀ y ∈ t.asks.table, y.own = true ∨ (y ∈ s.asks.table ∧ y ≠ x)) ∧
        (∀ y ∈ s.asks.table, y.id ≠ x.id → y ∈ t.asks.table) ∧
        ∀ y ∈ t.bus.queue, y.origin = .askPart x.id → s.bus.onWire = some y.id)) ∧
  ∀ (s : State) (r : StatusReply), s.bus.hasRoom = true → s.asks.status = [r] → r.composed = none →
    firstWaiting s.waits = some { kind := 13, since := r.since, pick := .status r } →
    ∃ t, exec .placeGranted s = .next t ∧
      let part := fun (type i : Byte) (content : List Byte) =>
        ({ kind := 13, dst := r.asker, bcast := false, payload := [type, 0, i] ++ content } : TxFrame)
      let reply := fun (first : TxFrame) (rest : List TxFrame) =>
        t.bus = { s.bus with
          queue := insertFrame { id := s.order, origin := .askStatus, frame := first } s.bus.queue } ∧
        t.asks = { s.asks with status := if rest = [] then [] else [{ r with composed := some rest }] }
      let h := fun (k : Fin 8) => s.header k
      let w := s.words
      let four := fun (n : BitVec 32) => beBytes 4 n.toNat
      let peer := fun (i : Fin 8) =>
        let p := s.peer i
        let absent := Config.absentByte s.order 2 i.val
        let marks := fun (panel : Bool) =>
          flagByte [(0, p.present), (1, p.details.isSome), (2, p.current.isSome), (3, p.skewValid), (4, panel)]
        match p.details with
        | some d => [marks d.panel, d.banks.setWidth 8, d.cadence] ++ b2 d.part.toNat
        | none => [marks ((absent 3).getLsbD 0), absent 0 &&& 0x03, 0xFF, absent 1, absent 2]
      let record := fun (x : Word) =>
        b1 (x.decoder.val * 64 + (if x.value2.isSome then 32 else 0) + x.kind.code) ++ b2 x.value.toNat ++
          b2 (x.value2.getD 0).toNat ++ b6 x.start ++ b6 x.stop ++
          [flagByte [(0, x.flags.parity), (1, x.flags.framing), (2, x.flags.short), (3, x.flags.undersampled),
            (4, x.flags.glitched), (5, x.flags.acked)]] ++
          b1 ((match x.matched with | some n => n.val | none => 31) * 8 + x.seg.val)
      (r.selector = .summary →
        reply
          (part 3 0 (b1 s.session.state.code ++ b1 (match s.session.k with | some k => k.val | none => 255) ++
            b1 (match s.session.active with | some p => 2 ^ p.general.segCode.toNat | none => 255) ++
            b1 s.sequencer.state.code ++ b1 s.sequencer.stage.val ++ b2 s.sequencer.count ++ b2 s.mark.missed ++
            (List.finRange 8).flatMap fun k => b1 (h k).state.code))
          [part 3 1 ((List.finRange 8).flatMap fun k => b2 (h k).merged ++ b2 (h k).lateMarks ++ b2 (h k).lateFires),
            part 3 2 (b2 w.qa.words.length ++ b2 w.qb.words.length ++ four w.completed ++ four w.discarded ++
              four w.lost ++ four w.latched ++ four w.trimmedAtCompletion ++ four w.qa.enqueued ++
              four w.qb.enqueued ++ four w.qa.overwritten ++ four w.qb.overwritten ++ four w.qa.trimmed ++
              four w.qb.trimmed ++ four w.qa.feedMissed ++ four w.qb.feedMissed),
            part 3 3 (b1 s.bus.score ++ b1 s.bus.link.code ++ b2 s.frontEnd.activity.toNat ++
              [flagByte [(0, s.store.mergedSeen), (1, s.decoders.undersampledSeen), (2, s.peers.driftMask != 0),
                (3, w.feedMissedSeen), (4, w.latchOverrunSeen), (5, s.mark.missedSeen)]] ++
              b1 s.peers.driftMask ++ b1 s.mark.edges.length ++
              (List.range 4).flatMap fun i => match s.mark.edges[i]? with
                | some e => b6 e.stamp ++ [if e.rising then 1 else 0]
                | none => absentBytes s.order 1 i 7),
            part 3 4 ((List.finRange 8).flatMap peer)] ∧
        t.frontEnd = { s.frontEnd with activity := 0 } ∧ t.store = { s.store with mergedSeen := false } ∧
        t.decoders = { s.decoders with undersampledSeen := false } ∧
        t.words = { w with feedMissedSeen := false, latchOverrunSeen := false } ∧
        t.mark = { s.mark with missedSeen := false } ∧ ∀ p, t.peer p = { s.peer p with drift := false }) ∧
      (r.selector = .latches →
        let slot := fun (n : Fin 8) =>
          let l := vget w.latches n
          flagByte [(0, l.word.isNone), (1, l.isNew)] :: b2 l.overrun ++
            match l.word with
            | some x => record x
            | none => (List.range 19).map fun i =>
              Config.absentByte s.order 0 n.val i &&& (if i = 0 then 0xEF else if i = 17 then 0x3F else 0xFF)
        reply (part 4 0 (slot 0 ++ slot 1))
          [part 4 1 (slot 2 ++ slot 3), part 4 2 (slot 4 ++ slot 5), part 4 3 (slot 6 ++ slot 7)] ∧
        ∀ n, vget t.words.latches n = { vget w.latches n with isNew := false }) ∧
      (r.selector = .other →
        reply { kind := 13, dst := r.asker, bcast := false, payload := [6, 2, 0] } [])

/-- The free engine takes the oldest WAITING entry, one from the bus here (R171, R177). The first check that fails gives
the outcome: NO_SESSION in IDLE; RANGE for a segment at or above the number of segments, an index at or above its limit,
a column count outside 1 to 320 or an EMPTY segment; LIVE for one FILLING or in POST. The entry then leaves the table
and one frame without data carries that outcome. Where every check passes the entry is SERVING, with its reply computed
whole at that moment. A REDUCE reply has the runs of its columns, 27 to a part, each part's first column the sum of the
run lengths before it, and ABSENT for a channel of an absent bank, whose columns are all NONE (R173, R177). A WORDS
reply has its boxes, 6 to a part, a later part's first column one more than the last column before it. The boxes spell
the words of the asked decoder and segment, queue A's before queue B's, sorted stably by start and end time (their times
within half the wrap), those outside the window skipped (R175): a word that starts at or before the last column of the
box before it joins that box, which gains DENSE, the count of its words, the larger last column and the word's marks;
any other opens a box; a 48th is the MORE box, worth the words not yet placed, with the marks of the word that opens it
(R176, log entry 31). A word's box has the columns, clips, kind, value and ERROR mark of R175. An own entry passes the
same checks, leaves the table at once, and its reply is handed whole to the view engine (R178): its lane is FAILED with
the outcome's banner, or DONE with the runs or boxes of every part; told while another lane is still to come. The first
and second parts are told where no local lane waits for a place; a waiting one takes the place freed, as a new entry
(R170, R189; its name is the model's, log entry 10). -/
def Obligations.EngineTakesOldest : Prop :=
  (∀ (s : State) (e : AskEntry) (r : List AskEntry) (p : Plan),
    s.asks.table = e :: r → (∀ x ∈ e :: r, x.serving = false) → e.own = false → (∀ x ∈ r, x.id ≠ e.id) →
    (s.view.pass = none ∨ ∀ n z, vget s.view.fetch n = some z → z.station = s.bus.own → z.state ≠ .waiting) →
    (s.session.state ≠ .idle → s.session.active = some p) →
    let n := 2 ^ p.general.segCode.toNat
    let held := (s.header ⟨e.seg.toNat % 8, Nat.mod_lt _ (by decide)⟩).state
    let fits := e.seg.toNat < n ∧ e.index.toNat < (if e.words then 4 else 16) ∧ 1 ≤ e.columns ∧ e.columns ≤ 320 ∧
      held ≠ .empty
    let refused := fun (t : State) (o : OutcomeCode) =>
      t.asks.table = r ∧
        t.asks.refusals = s.asks.refusals ++
          [{ asker := e.asker, tag := e.tag, busy := false
             held := { since := s.order, origin := .askRefusal
                       frame := (emptyPart e.tag e.words o 0 0).frame e.asker } }]
    ∃ t, exec .askServiceStart s = .next t ∧
      t = { s with asks := { s.asks with table := t.asks.table, refusals := t.asks.refusals }, order := s.order + 1 } ∧
      (s.session.state = .idle → refused t .noSession) ∧
      (s.session.state ≠ .idle → ¬ fits → refused t .range) ∧
      (s.session.state ≠ .idle → fits → held = .filling ∨ held = .post → refused t .live) ∧
      (s.session.state ≠ .idle → fits → held = .complete ∨ held = .cut →
        t.asks.table = { e with serving := true, parts := s.computeReply e, readySince := s.order } :: r ∧
        t.asks.refusals = s.asks.refusals)) ∧
  (∀ (s : State) (e : AskEntry) (r : List AskEntry) (pass : Pass) (z : StationTime) (n : Fin 16) (x : Fetch),
    s.asks.table = e :: r → (∀ y ∈ e :: r, y.serving = false) → e.own = false → (∀ y ∈ r, y.id ≠ e.id) →
    s.session.state = .idle → s.view.pass = some pass → pass.zero = some z → vget s.view.fetch n = some x →
    x.state = .waiting → x.station = s.bus.own →
    (∀ m y, m ≠ n → vget s.view.fetch m = some y → y.station = s.bus.own → y.state ≠ .waiting) →
    r.length < 8 → (r.filter (·.own)).length < 4 →
    ∃ t, exec .askServiceStart s = .next t ∧
      t.view = { s.view with fetch := vset s.view.fetch n (some { x with state := .pending }) } ∧
      t.asks.table = r ++ [{
        id := s.order + 1, asker := s.bus.own, own := true, tag := x.tag, words := (vget pass.lanes n).decoder
        seg := BitVec.ofNat 8 pass.window.seg.val, index := (vget pass.lanes n).index, start := z + pass.window.offset
        w := pass.window.w, k := 0, columns := 280, serving := false, parts := [], placed := 0, sent := 0
        readySince := 0 }]) ∧
  (∀ (s : State) (e : AskEntry) (r : List AskEntry) (p : Plan) (l : Layout) (pass : Pass) (i j : Fin 16) (x y : Fetch),
    s.asks.table = e :: r → (∀ z ∈ e :: r, z.serving = false) → (∀ z ∈ r, z.id ≠ e.id) → e.own = true →
    (s.session.state ≠ .idle → s.session.active = some p ∧ s.store.layout = some l) → e.columns = 280 →
    e.tag = laneTag s.view.generation i → vget s.view.fetch i = some x → x.state = .pending →
    x.station = s.bus.own → x.decoder = e.words → x.nextPart = 0 → x.nextCol = 0 → x.runs = [] → x.boxes = [] →
    s.view.pass = some pass → pass.zero.isSome = true → i ≠ j → (vget pass.lanes j).used = true →
    vget s.view.fetch j = some y → (y.state = .waiting ∨ y.state = .pending) →
    (∀ n z, vget s.view.fetch n = some z → z.station = s.bus.own → z.state ≠ .waiting) →
    let held := (s.header ⟨e.seg.toNat % 8, Nat.mod_lt _ (by decide)⟩).state
    let fits := e.seg.toNat < 2 ^ p.general.segCode.toNat ∧ e.index.toNat < (if e.words then 4 else 16) ∧ held ≠ .empty
    let parts := s.computeReply e
    ∃ z, exec .askServiceStart s = .next { s with
        asks := { s.asks with table := r }, view := { s.view with fetch := vset s.view.fetch i (some z) } } ∧
      let refused := fun (b : Banner) =>
        z = { x with state := .failed, banner := some b, deadline := none, reaskAt := none }
      (s.session.state = .idle → refused .noSession) ∧
      (s.session.state ≠ .idle → ¬ fits → refused .range) ∧
      (s.session.state ≠ .idle → fits → held = .filling ∨ held = .post → refused .live) ∧
      (s.session.state ≠ .idle → fits → held = .complete ∨ held = .cut →
        z.state = .done ∧ z.deadline = none ∧ z.nextPart = parts.length ∧
          z.runs = (parts.flatMap fun q => match q.data with | .runs m => m | .boxes _ => []) ∧
          z.boxes = (parts.flatMap fun q => match q.data with | .runs _ => [] | .boxes m => m) ∧
          z.absent = (x.absent || parts.any (·.absent)))) ∧
  (∀ (s : State) (e : AskEntry) (l : Layout), s.store.layout = some l → 1 ≤ e.columns → e.columns ≤ 320 →
    let seg : Fin 8 := ⟨e.seg.toNat % 8, Nat.mod_lt _ (by decide)⟩
    let ch : Chan := ⟨e.index.toNat % 16, Nat.mod_lt _ (by decide)⟩
    let dec : Fin 4 := ⟨e.index.toNat % 4, Nat.mod_lt _ (by decide)⟩
    let h := s.header seg
    let runs := packRuns ((List.range e.columns).map fun c =>
      if s.frontEnd.chanPresent ch
      then columnClass (s.store.records l seg) h.base (h.close.getD h.base) ch (e.boundary c) (e.boundary (c + 1))
      else (.none, false))
    let boxes := s.askBoxes e seg dec
    let parts := s.computeReply e
    (e.words = false → parts.length = (runs.length + 26) / 27 ∧ ∀ (i : Nat) (p : Part), parts[i]? = some p →
      p = { tag := e.tag, outcome := .ok, index := i, first := ((runs.take (27 * i)).map (·.length)).sum
            last := decide (i + 1 = parts.length), absent := !s.frontEnd.chanPresent ch
            data := .runs ((runs.drop (27 * i)).take 27) }) ∧
    (e.words = true → parts.length = max 1 ((boxes.length + 5) / 6) ∧ ∀ (i : Nat) (p : Part), parts[i]? = some p →
      p = { tag := e.tag, outcome := .ok, index := i
            first := match (boxes.take (6 * i)).getLast? with | some b => b.last + 1 | none => 0
            last := decide (i + 1 = parts.length), absent := false
            data := .boxes ((boxes.drop (6 * i)).take 6) }) ∧
    boxes.length ≤ 48 ∧ (∀ l1 a b l2, boxes = l1 ++ a :: b :: l2 → a.last < b.first) ∧
    let held := (s.words.qa.words ++ s.words.qb.words).filter fun w => w.decoder == dec && w.seg == seg
    ∀ t0 : StationTime, (∀ w ∈ held, (w.start - t0).toNat < 2 ^ 47 ∧ (w.stop - t0).toNat < 2 ^ 47) →
      ∃ (ws : List Word) (groups : List (Word × List Word)) (rest : List Word),
        ws.Pairwise (fun a b => earlier a.start b.start = true ∨ a.start = b.start ∧ notAfter a.stop b.stop = true) ∧
        (∀ t u, ws.filter (fun w => w.start == t && w.stop == u) =
          held.filter fun w => w.start == t && w.stop == u) ∧
        (groups.flatMap fun g => g.1 :: g.2) ++ rest = (ws.filter fun w =>
          !(earlier w.stop (e.boundary 0) || notAfter (e.boundary e.columns) w.start)) ∧
        groups.length ≤ 47 ∧ (rest ≠ [] → groups.length = 47) ∧
        let reach := fun (w : Word) (l : List Word) => (l.map fun y => (e.boxOf y).last).foldl max (e.boxOf w).last
        (∀ g ∈ groups, ∀ l1 w l2, g.2 = l1 ++ w :: l2 → (e.boxOf w).first ≤ reach g.1 l1) ∧
        (∀ l1 g h l2, groups = l1 ++ g :: h :: l2 → reach g.1 g.2 < (e.boxOf h.1).first) ∧
        (∀ l1 g w l2, groups = l1 ++ [g] → rest = w :: l2 → reach g.1 g.2 < (e.boxOf w).first) ∧
        let any := fun (f : Box → Bool) (g : Word × List Word) => (g.1 :: g.2).any fun w => f (e.boxOf w)
        boxes =
          (groups.map fun g => { e.boxOf g.1 with
            last := reach g.1 g.2, clipL := any (·.clipL) g, clipR := any (·.clipR) g, error := any (·.error) g
            dense := decide (0 < g.2.length)
            value := if g.2 = [] then g.1.value.toNat else min 65535 (g.2.length + 1) }) ++
          match rest with
          | [] => []
          | w :: _ => [{ e.boxOf w with last := e.columns - 1, value := min 65535 rest.length, more := true }]) ∧
  ∀ (e : AskEntry) (w : Word), 1 ≤ e.columns →
    let x := e.boxOf w
    let b0 := e.boundary 0
    let bW := e.boundary e.columns
    let holds := fun (c : Nat) (t : StationTime) =>
      c < e.columns ∧ (c = 0 ∨ notAfter (e.boundary c) t = true) ∧
        ∀ d, c < d → d < e.columns → notAfter (e.boundary d) t = false
    holds x.first (later w.start b0) ∧ holds x.last (sooner w.stop (bW - 1)) ∧ x.clipL = earlier w.start b0 ∧
      x.clipR = notAfter bW w.stop ∧ x.kind = BitVec.ofNat 8 w.kind.code ∧ x.value = w.value.toNat ∧
      x.dense = false ∧ x.more = false ∧
      (x.error = true ↔ w.kind = .error ∨ w.kind = .brk ∨ w.flags.parity = true ∨ w.flags.framing = true ∨
        w.flags.short = true)

/-- The columns of a reduction (R172): boundary 0 is the start's offset rounded to the nearest tick, each boundary is the
rounded offset where that lies above the one before and one tick more than the one before otherwise, so that the
boundaries strictly increase. A column's class (R173): NONE with the flag clear where its effective interval is empty; else
TOGGLE where a record strictly inside the interval changes the channel's level from the record before it, and otherwise LOW
or HIGH by the last record at or before the interval's start; the glitch flag is set where a record in the interval, the
start included, has the channel in its glitch set. -/
def Obligations.ColumnBoundariesIncrease : Prop :=
  (∀ (w : Nat) (k : Int),
    let raw := fun (c : Nat) => (c : Int) * w + ((c : Int) * w * k + 2 ^ 23) / 2 ^ 24
    columnOffset w k 0 = raw 0 ∧
      (∀ c, columnOffset w k (c + 1) =
        if columnOffset w k c < raw (c + 1) then raw (c + 1) else columnOffset w k c + 1) ∧
      ∀ c d, c < d → columnOffset w k c < columnOffset w k d) ∧
  ∀ (rs : List (StationTime × Rec)) (base close b0 b1 : StationTime) (ch : Chan),
    let lo := later b0 base
    let hi := sooner b1 close
    let r := columnClass rs base close ch b0 b1
    (earlier lo hi = false → r = (.none, false)) ∧
    (earlier lo hi = true →
      r.1 ≠ .none ∧
      (r.1 = .toggle ↔ ∃ l u a v d m, rs = l ++ (u, a) :: (v, d) :: m ∧ earlier lo v = true ∧ earlier v hi = true ∧
        chanBit a.levels ch ≠ chanBit d.levels ch) ∧
      (∀ l u a m, rs = l ++ (u, a) :: m → (∀ x ∈ l, notAfter x.1 lo = true) → notAfter u lo = true →
        (∀ x ∈ m, notAfter x.1 lo = false) → r.1 ≠ .toggle →
        r.1 = if chanBit a.levels ch then .high else .low) ∧
      (r.2 = true ↔ ∃ x ∈ rs, notAfter lo x.1 = true ∧ earlier x.1 hi = true ∧ chanBit x.2.glitch ch = true))

/-- The runs of a reduction (R174): in order they spell the columns, each column falling in exactly one run, adjacent runs
differ in class or glitch flag, every run is 1 column long or more, and the lengths sum to W. -/
def Obligations.RunsSpellColumns : Prop :=
  ∀ (l : List (ColClass × Bool)),
    (packRuns l).flatMap (fun r => List.replicate r.length (r.cls, r.glitch)) = l ∧
      ((packRuns l).map (·.length)).sum = l.length ∧
      (∀ r ∈ packRuns l, 1 ≤ r.length) ∧ (packRuns l).length ≤ l.length ∧
      ∀ l1 a b l2, packRuns l = l1 ++ a :: b :: l2 → (a.cls, a.glitch) ≠ (b.cls, b.glitch)

/-! ## View engine and panel port -/

/-- A VIEW_PART (R185, R186): at a station with a panel a LANES part or a WINDOW of its length replaces that part of the
view plan whole, and no other, each field as R203 lays it out, a w of 0 taken as 1 and a cursor above 279 as off (R186);
a part of another length or identity changes nothing. At a station without a panel a part of an identity of R186 and its
length (R203), a GO among them, addressed to it makes a NO_PANEL refusal to its sender, which replaces the one waiting;
a broadcast one is ignored, and one of another length or identity is discarded with no reply (R199). -/
def Obligations.ViewPartTaken : Prop :=
  ∀ (f : RxFrame) (s : State) (id : Byte) (part : List Byte), s.Takes f → f.payload = id :: part →
    let refused : State := { s.takeGood f with
      order := s.order + 1
      view := { s.view with note := some {
        since := s.order, origin := .viewNote
        frame := { kind := 13, dst := f.src, bcast := false, payload := [5, 6, 0, id] } } } }
    let on := fun (i n : Nat) => (byteAt part i).getLsbD n
    let three := fun (i : Nat) => (⟨(byteAt part i).toNat % 8, Nat.mod_lt _ (by decide)⟩ : Fin 8)
    let cursor := fun (i : Nat) => if 279 < field part i 2 then none else some (field part i 2)
    let fits := id.toNat ≤ 3 ∧ part.length = 32 ∨ id.toNat = 4 ∧ part.length = 17
    (id = 5 → part = [] → s.bus.panel = false →
      exec (.viewGo f) s = .next (if f.bcast then s.takeGood f else refused)) ∧
    (¬ (id = 5 ∧ part = []) →
      ∃ t, exec (.viewPart f) s = .next t ∧
        (s.bus.panel = true →
          t = { s.takeGood f with view := { s.view with lanes := t.view.lanes, window := t.view.window } } ∧
          (∀ n, vget t.view.lanes n =
            if id.toNat = n.val / 4 ∧ part.length = 32 then
              let o := n.val % 4 * 8
              { used := on o 7, decoder := on o 6, station := three o, index := byteAt part (o + 1)
                label := ⟨#[byteAt part (o + 2), byteAt part (o + 3), byteAt part (o + 4), byteAt part (o + 5),
                  byteAt part (o + 6), byteAt part (o + 7)], rfl⟩ }
            else vget s.view.lanes n) ∧
          t.view.window =
            if id.toNat = 4 ∧ part.length = 17 then
              { seg := three 0, zero := three 1, offset := BitVec.ofNat 48 (field part 2 6)
                w := if field part 8 4 = 0 then 1 else field part 8 4
                cursorA := cursor 12, cursorB := cursor 14, backlight := BitVec.ofNat 4 (byteAt part 16).toNat }
            else s.view.window) ∧
        (s.bus.panel = false → f.bcast = true ∨ ¬ fits → t = s.takeGood f) ∧
        (s.bus.panel = false → f.bcast = false → fits → t = refused))

/-- What starts a render (R188): a VIEW_GO, a STATUS_NOTE closure of the viewed segment from the station of a used lane,
and the closure of this station's own viewed segment, at the staging write of its last record or, where nothing of it is
staged, at a HALT that cuts it (R32) or at its deadline boundary (R31); no other STATUS_NOTE does, and no closure of
another own segment. The pass in hand is abandoned (R192), the generation rises by 1, wrapping from 15 to 0, and the new
pass copies the view plan. Time zero (R187) is the own trigger time of the segment, else the zero station's last fire
for it brought into local time, else none. With one, every used lane gets an entry (R189): a local lane is PENDING with
its own entry in the ask table while the table takes it and WAITING otherwise; a remote one fails with NO LINK at an
ABSENT peer or a silent link, with NO SYNC without an anchor, and else waits with its ask, its start by inverse
conversion (R168) and k' = -k. Without one no ask is made. A pass with nothing to wait for is complete at once: drawn
and pushed from this tick (log entry 61) where the port is IDLE, kept until the push ends where it is not. -/
def Obligations.RenderStarts : Prop :=
  (∀ (f : RxFrame) (s : State), s.Takes f →
    (s.bus.panel = false ∨ readClosure f.payload ≠ some (BitVec.ofNat 8 s.view.window.seg.val) ∨
      ∀ n, (vget s.view.lanes n).used = true → (vget s.view.lanes n).station ≠ f.src) →
    exec (.statusNote f) s = .next (s.takeGood f)) ∧
  (∀ (s : State) (l : Layout) (x : Staged) (rest : List Staged) (st : SegState),
    s.store.layout = some l → s.store.fifo = x :: rest → s.store.writeWait = 0 → (∀ y ∈ rest, y.seg ≠ x.seg) →
    (s.header x.seg).ending = some st → x.seg ≠ s.view.window.seg ∨ s.bus.panel = false →
    ∃ t, exec .stagingWrite s = .next t ∧ t.view = s.view) ∧
  ∀ (c : Instr) (s : State), s.bus.panel = true →
    ((∃ f, s.Takes f ∧ (c = .viewGo f ∧ f.payload = [5] ∨
        c = .statusNote f ∧ readClosure f.payload = some (BitVec.ofNat 8 s.view.window.seg.val) ∧
          ∃ n, (vget s.view.lanes n).used = true ∧ (vget s.view.lanes n).station = f.src)) ∨
      (∃ l x rest st, c = .stagingWrite ∧ s.store.layout = some l ∧ s.store.fifo = x :: rest ∧ s.store.writeWait = 0 ∧
        (∀ y ∈ rest, y.seg ≠ x.seg) ∧ (s.header x.seg).count < l.capacity ∧ (s.header x.seg).ending = some st ∧
        x.seg = s.view.window.seg) ∨
      ∃ k : Current, s.store.current = some k ∧ k.seg = s.view.window.seg ∧ s.store.stagedOf k.seg = 0 ∧
        ((∃ f, s.Takes f ∧ c = .halt f ∧ f.payload = [] ∧ s.session.state.runs = true ∧ s.store.offers = []) ∨
          ∃ sched l x d, c = .sampleBoundary sched ∧ s.time = s.frontEnd.nextBoundary ∧ s.frontEnd.changing = 0 ∧
            s.store.layout = some l ∧ k.taken.isSome = true ∧ s.store.reference = some x ∧
            (s.header k.seg).state = .post ∧ (s.header k.seg).deadline = some d ∧ notAfter d s.time = true ∧
            recordAt (period l.rate) x (s.frontEnd.element s.time) = none)) →
    ∃ t p, exec c s = .next t ∧ t.view.generation = s.view.generation + 1 ∧ t.view.pass = some p ∧
      p.lanes = s.view.lanes ∧ p.window = s.view.window ∧ t.view.stops = s.view.stops ∧
      (∀ e ∈ t.bus.queue, ∀ tag, e.origin = .viewAsk tag → s.bus.onWire = some e.id) ∧
      (let w := s.view.window
       let trig := (s.header w.seg).trigTime
       let z := t.peer w.zero
       (∀ b, trig = some b → p.zero = some b) ∧
       (∀ a i, trig = none → w.zero ≠ s.bus.own → z.present = true → z.current = some a → z.lastFire = some i →
         i.seg.toNat = w.seg.val →
         let d := tdiff i.stamp a.remote
         let k := if z.skewValid then z.skew else 0
         p.zero = some (a.loc + BitVec.ofInt 48 (d + (d * k + 2 ^ 23) / 2 ^ 24))) ∧
       (trig = none → (w.zero = s.bus.own ∨ z.present = false ∨ z.current = none ∨
         ∀ i, z.lastFire = some i → i.seg.toNat ≠ w.seg.val) → p.zero = none)) ∧
      (let others := s.asks.table.filter fun e => !e.own
       (p.zero = none → (∀ n, vget t.view.fetch n = none) ∧ t.view.asks = [] ∧ t.asks.table = others) ∧
       ∀ b, p.zero = some b →
        let v0 := b + s.view.window.offset
        let tag := fun (n : Fin 16) => BitVec.ofNat 8 (t.view.generation.toNat * 16 + n.val)
        let lane := fun (n : Fin 16) => vget s.view.lanes n
        let peer := fun (n : Fin 16) => t.peer (lane n).station
        let ask := fun (n : Fin 16) (a : Anchor) =>
          let k := if (peer n).skewValid then (peer n).skew else 0
          let e := tdiff v0 a.loc
          askFrame (lane n).decoder (lane n).station (tag n) s.view.window.seg (lane n).index
            (a.remote + BitVec.ofInt 48 (e - (e * k + 2 ^ 23) / 2 ^ 24)) s.view.window.w (-k) 280
        let taken := ((List.finRange 16).filter fun n => (lane n).used && (lane n).station == s.bus.own).take
          (min 4 (8 - others.length))
        let entry := fun (n : Fin 16) (state : FetchState) (banner : Option Banner) (ask : Option TxFrame) => ({
          tag := tag n, station := (lane n).station, decoder := (lane n).decoder, state := state, reasks := 0
          deadline := none, reaskAt := none, ask := ask, nextPart := 0, nextCol := 0, runs := [], boxes := []
          absent := false, banner := banner } : Fetch)
        (∀ n, vget t.view.fetch n =
          if (lane n).used = false then none
          else if (lane n).station = s.bus.own then
            some (entry n (if n ∈ taken then .pending else .waiting) none none)
          else if (peer n).present = false then some (entry n .failed (some .noLink) none)
          else match (peer n).current with
            | none => some (entry n .failed (some .noSync) none)
            | some a =>
              if t.bus.link.silent then some (entry n .failed (some .noLink) none)
              else some (entry n .waiting none (some (ask n a)))) ∧
        (t.asks.table.map fun e => { e with id := 0 }) =
          (others.map fun e => { e with id := 0 }) ++ taken.map (fun n => {
            id := 0, asker := s.bus.own, own := true, tag := tag n, words := (lane n).decoder
            seg := BitVec.ofNat 8 s.view.window.seg.val, index := (lane n).index, start := v0, w := s.view.window.w
            k := 0, columns := 280, serving := false, parts := [], placed := 0, sent := 0, readySince := 0 }) ∧
        (t.view.asks.map fun h => (h.origin, some h.frame)) =
          (((List.finRange 16).filter fun n => match vget t.view.fetch n with
            | some x => x.ask.isSome
            | none => false).map fun n => (.viewAsk (tag n), (vget t.view.fetch n).bind fun x => x.ask))) ∧
      let settled := p.zero = none ∨ ∀ n, (vget s.view.lanes n).used = true →
        ∃ x, vget t.view.fetch n = some x ∧ (x.state = .done ∨ x.state = .failed)
      (settled → t.view.push = some (s.view.push.getD s.time) ∧
        p.phase = (if s.view.push = none then .drawn else .complete)) ∧
      (¬ settled → t.view.push = s.view.push ∧ p.phase = .collecting) ∧
      (settled → s.view.push = none → t.view.buffer = t.raster p) ∧
      (¬ settled ∨ s.view.push.isSome = true → t.view.buffer = s.view.buffer)

/-- A RUNS or BOXES part (R191): one whose tag names a PENDING lane of the present generation, from that lane's station
and of that lane's kind, is assembled in order, with the run lengths or the last box giving the next column; a part that
is missing and a refusal fail the lane with its banner; BUSY asks again at a remote lane, at most twice (R190), and
changes nothing at a local one, of which R190 does not speak (log entry 27). Any other is only received: one of another
generation or for a lane without an entry, one whose payload is no part (R199; an unassigned outcome: log entry 20), and
every one at a station without a panel (R185). While another used lane of a pass with a time zero is still to come nothing
more happens; a part that is the last the pass waits for completes it (R192): drawn and pushed from this tick where the
port is IDLE (log entry 61), kept until the push ends where it is not. -/
def Obligations.ReplyPartsAssembled : Prop :=
  ∀ (isBoxes : Bool) (f : RxFrame) (s : State), s.Takes f →
    let g := s.takeGood f
    let run := exec (if isBoxes then .boxes f else .runs f) s
    (s.bus.panel = false → run = .next g) ∧
    (readPart isBoxes f.payload = none → run = .next g) ∧
    ∀ p : Part, s.bus.panel = true → readPart isBoxes f.payload = some p →
      (p.tag.toNat / 16 ≠ s.view.generation.toNat → run = .next g) ∧
      ∀ n : Fin 16, p.tag = laneTag s.view.generation n →
        (vget s.view.fetch n = none → run = .next g) ∧
        ∀ x : Fetch, vget s.view.fetch n = some x →
          (x.state ≠ .pending ∨ x.station ≠ f.src ∨ x.decoder ≠ isBoxes → run = .next g) ∧
          (x.state = .pending → x.station = f.src → x.decoder = isBoxes → ∃ z,
            let view := { s.view with fetch := vset s.view.fetch n (some z) }
            let ended := fun (y : Fetch) => y.state = .done ∨ y.state = .failed
            let inOrder := p.index = x.nextPart ∧ p.first = x.nextCol
            (∀ pass, s.view.pass = some pass → pass.zero.isSome = true →
              ((∃ m, n ≠ m ∧ (vget pass.lanes m).used = true ∧ ∃ y, vget s.view.fetch m = some y ∧ ¬ ended y) ∨
                  (vget pass.lanes n).used = true ∧ ¬ ended z ∨ pass.phase ≠ .collecting →
                run = .next { g with view := view }) ∧
              (pass.phase = .collecting → ended z →
                (∀ m, n ≠ m → (vget pass.lanes m).used = true → ∃ y, vget s.view.fetch m = some y ∧ ended y) →
                (s.view.push = none → run = .next { g with view := { view with
                  pass := some { pass with phase := .drawn }
                  buffer := State.raster { g with view := view } pass
                  push := some s.time } }) ∧
                (s.view.push.isSome = true →
                  run = .next { g with view := { view with pass := some { pass with phase := .complete } } }))) ∧
            (s.view.pass = none → run = .next { g with view := view }) ∧
            (p.outcome = .ok → inOrder →
              z.nextPart = x.nextPart + 1 ∧ z.absent = (x.absent || p.absent) ∧
              (p.last = false → z.state = .pending) ∧
              (∀ l, p.data = .runs l → z.runs = x.runs ++ l ∧ z.boxes = x.boxes ∧
                z.nextCol = x.nextCol + (l.map (·.length)).sum ∧
                (p.last = true → isBoxes = false →
                  z.state = (if z.nextCol = 280 then .done else .failed) ∧
                    (z.nextCol ≠ 280 → z.banner = some .noLink))) ∧
              (∀ l, p.data = .boxes l → z.boxes = x.boxes ++ l ∧ z.runs = x.runs) ∧
              (∀ l b, p.data = .boxes (l ++ [b]) → z.nextCol = b.last + 1) ∧
              (p.last = true → isBoxes = true → z.state = .done)) ∧
            (p.outcome = .ok → ¬ inOrder → z.state = .failed ∧ z.banner = some .noLink) ∧
            (p.outcome = .busy → x.ask = none → z = x) ∧
            (p.outcome = .busy → x.ask.isSome = true → x.reasks < 2 →
              z = { x with
                state := .waiting, reasks := x.reasks + 1, deadline := none, reaskAt := some (after s.time (2 ^ 20)) }) ∧
            (p.outcome = .busy → x.ask.isSome = true → 2 ≤ x.reasks → z.state = .failed ∧ z.banner = some .busy) ∧
            (p.outcome = .gone → z.state = .failed ∧ z.banner = some .gone) ∧
            (p.outcome = .live → z.state = .failed ∧ z.banner = some .live) ∧
            (p.outcome = .range → z.state = .failed ∧ z.banner = some .range) ∧
            (p.outcome = .noSession → z.state = .failed ∧ z.banner = some .noSession))

/-- The timers of a lane (R190), told in a pass with a time zero: a deadline that expires fails its lane with NO LINK
and makes a STOP with its tag to its station; a re-ask timer makes the same ask again, which waits for a place, and
fails the lane with NO LINK where the link is silent (log entry 28, DEDUCED: R189 names only the walk and the moment the
link falls silent). The deadline that leaves no used lane to come completes the pass (R192): drawn and pushed from this
tick where the port is IDLE, kept until the push ends where it is not. A push whose 153,600 ticks have passed ends, and
a pass that waits is drawn and its push begins at this tick (R197, log entry 61). What the panel shows: each byte of the
frame buffer has four pixels of a row, the leftmost highest (R197). A text is dark, one character to 6 columns, in the
font's cells (R193, log entries 3 and 59). The header has its text of R194, each lane its label and light grey
separator, the footer its readout of R196. Cursor A is over cursor B, both over the zero column, all three over the lane
rows (R196); beneath them an unused lane and one without a time zero stay background, a DONE lane draws its runs by
class, its boxes' outlines and what completes each (R195; the column of a clipped side by log entry 31), a FAILED one
its banner on light grey (R194). In a push each byte has 8 ticks on PD, PWR high for the third to sixth; an IDLE port
keeps them low; BL is high for level x 1,024 ticks (R197). -/
def Obligations.LaneTimersAndPushEnd : Prop :=
  (∀ (s : State) (n : Fin 16) (x : Fetch) (e : StationTime) (p : Pass), vget s.view.fetch n = some x →
    s.view.pass = some p → p.zero.isSome = true → (vget p.lanes n).used = true →
    let toCome := fun (m : Fin 16) => n ≠ m ∧ (vget p.lanes m).used = true ∧
      ∃ y, vget s.view.fetch m = some y ∧ (y.state = .waiting ∨ y.state = .pending)
    let failed := { x with state := .failed, banner := some .noLink, deadline := none, reaskAt := none }
    let late := { s.view with
      fetch := vset s.view.fetch n (some failed)
      stops := s.view.stops ++ [{ since := s.order, origin := .viewStop, frame := stopFrame x.station x.tag }] }
    (x.state = .pending → x.deadline = some e → notAfter e s.time = true →
      (∀ m, toCome m → exec (.fetchDeadline n) s = .next { s with view := late, order := s.order + 1 }) ∧
      (p.phase = .collecting →
        (∀ m, n ≠ m → (vget p.lanes m).used = true →
          ∃ y, vget s.view.fetch m = some y ∧ (y.state = .done ∨ y.state = .failed)) →
        (s.view.push = none →
          exec (.fetchDeadline n) s = .next { s with
            view := { late with
              pass := some { p with phase := .drawn }
              buffer := State.raster { s with view := late } p
              push := some s.time }
            order := s.order + 1 }) ∧
        (s.view.push.isSome = true →
          exec (.fetchDeadline n) s = .next { s with
            view := { late with pass := some { p with phase := .complete } }
            order := s.order + 1 }))) ∧
    ∀ ask : TxFrame, x.state = .waiting → x.reaskAt = some e → notAfter e s.time = true → x.ask = some ask →
      (s.bus.link.silent = false →
        exec (.reaskTimer n) s = .next { s with
          view := { s.view with
            fetch := vset s.view.fetch n (some { x with reaskAt := none })
            asks := s.view.asks ++ [{ since := s.order, origin := .viewAsk x.tag, frame := ask }] }
          order := s.order + 1 }) ∧
      ∀ m, toCome m → s.bus.link.silent = true →
        exec (.reaskTimer n) s = .next { s with view := { s.view with fetch := vset s.view.fetch n (some failed) } }) ∧
  (∀ (s : State) (b : StationTime), s.view.push = some b → 153600 ≤ (s.time - b).toNat →
    ((∀ p, s.view.pass = some p → p.phase ≠ .complete) →
      exec .pushEnd s = .next { s with view := { s.view with push := none } }) ∧
    ∀ p, s.view.pass = some p → p.phase = .complete →
      exec .pushEnd s = .next { s with view := { s.view with
        pass := some { p with phase := .drawn }, buffer := s.raster p, push := some s.time } }) ∧
  (∀ (s : State) (p : Pass) (a : Nat), a < 19200 →
    ({ s.view with buffer := s.raster p } : View).readByte a =
      s.pixel p (a / 80) (a % 80 * 4) ++ s.pixel p (a / 80) (a % 80 * 4 + 1) ++ s.pixel p (a / 80) (a % 80 * 4 + 2) ++
        s.pixel p (a / 80) (a % 80 * 4 + 3)) ∧
  (∀ (text : List Nat) (row col r c : Nat), textAt text row col r c = true ↔
    row ≤ r ∧ r < row + 8 ∧ ∃ i ch, text[i]? = some ch ∧ col + 6 * i ≤ c ∧ c < col + 6 * i + 6 ∧
      ch ∈ chars "0123456789ABCDEFGHIJKLMNOPQRSTUVWXYZ.-+!:=dnums" ∧ Config.glyph ch (r - row) (c - col - 6 * i) = true) ∧
  (∀ (s : State) (p : Pass) (r c : Nat),
    let v := p.window.seg
    let fired := (List.finRange 8).filter fun i =>
      if i = s.bus.own then match (s.header v).cause with | some (.sequencer _ _ _ _) => true | _ => false
      else match (s.peer i).lastFire with | some f => f.seg.toNat == v.val | none => false
    let header := chars "SEG " ++ [48 + v.val] ++
      (match p.zero, fired with
        | none, _ => chars " NO TRIG"
        | some _, [] => []
        | some _, i :: l => chars " T:" ++ [48 + i.val] ++ l.flatMap fun j => [32, 48 + j.val]) ++
      match s.bus.link with
      | .normal => []
      | .joining => chars " JOINING"
      | .cautious => chars " CAUTIOUS"
      | .detached => chars " DETACHED"
      | .duplicate => chars " DUPLICATE"
    (r < 16 → s.pixel p r c = if textAt header 4 2 r c then 3 else 0) ∧
    (224 ≤ r → s.pixel p r c = if textAt p.window.readout 228 2 r c then 3 else 0)) ∧
  (∀ w : Window,
    (w.cursorA = none ∨ w.cursorB = none → w.readout = []) ∧
    ∀ a b, w.cursorA = some a → w.cursorB = some b →
      let n := (if b < a then a - b else b - a) * w.w * 5
      let decimal := fun (x : Nat) => (Nat.toDigits 10 x).map Char.toNat
      let scaled := fun (u : Nat) =>
        let k := 4 - (decimal (n / u)).length
        decimal (n / u) ++ if k = 0 then [] else chars "." ++ (List.range k).map fun i => 48 + n * 10 ^ (i + 1) / u % 10
      w.readout = chars "dT=" ++ (if b < a then chars "-" else []) ++
        if n < 1000 then decimal n ++ chars "ns"
        else if n < 10 ^ 6 then scaled 1000 ++ chars "us"
        else if n < 10 ^ 9 then scaled (10 ^ 6) ++ chars "ms"
        else scaled (10 ^ 9) ++ chars "s") ∧
  (∀ (p : Pass) (r c : Nat),
    let onA := ∃ k, p.window.cursorA = some k ∧ c = 40 + k
    let onB := (∃ k, p.window.cursorB = some k ∧ c = 40 + k) ∧ ((r - 16) % 4 = 0 ∨ (r - 16) % 4 = 1)
    let back := -p.window.offset.toInt
    let onZero := p.zero.isSome = true ∧ 0 ≤ back ∧ back < 280 * (p.window.w : Int) ∧
      (c : Int) = 40 + back / (p.window.w : Int) ∧ r % 2 = 0
    (onA ∨ onB → p.overlay r c = some 2) ∧ (¬ onA → ¬ onB → onZero → p.overlay r c = some 1) ∧
      (¬ onA → ¬ onB → ¬ onZero → p.overlay r c = none)) ∧
  (∀ (s : State) (p : Pass) (n : Fin 16) (row c : Nat), row ≤ 12 →
    let px := s.pixel p (16 + 13 * n.val + row) c
    (∀ g, p.overlay (16 + 13 * n.val + row) c = some g → px = g) ∧
    (p.overlay (16 + 13 * n.val + row) c = none →
      (row = 12 → px = 1) ∧
      (row ≤ 11 → (vget p.lanes n).used = false ∨ 40 ≤ c ∧ p.zero = none → px = 0) ∧
      (row ≤ 11 → (vget p.lanes n).used = true → c < 40 →
        px = if textAt ((vget p.lanes n).label.toList.map BitVec.toNat) 2 2 row c then 3 else 0))) ∧
  (∀ b : Banner, b.text = match b with
    | .noLink => chars "NO LINK"
    | .noSync => chars "NO SYNC"
    | .busy => chars "BUSY"
    | .range => chars "RANGE"
    | .live => chars "LIVE"
    | .gone => chars "GONE"
    | .noSession => chars "NO SESSION") ∧
  (∀ (s : State) (p : Pass) (n : Fin 16) (x : Fetch) (row c : Nat), (vget p.lanes n).used = true →
    p.zero.isSome = true → vget s.view.fetch n = some x → row ≤ 11 → p.overlay (16 + 13 * n.val + row) (40 + c) = none →
    let px := s.pixel p (16 + 13 * n.val + row) (40 + c)
    (x.state = .waiting ∨ x.state = .pending → px = 0) ∧
    (∀ l r m, x.state = .done → x.decoder = false → x.runs = l ++ r :: m → (l.map (·.length)).sum ≤ c →
      c < (l.map (·.length)).sum + r.length →
      px = if r.glitch = true ∧ row = 0 then 2 else match r.cls with
        | .low => if row = 11 then 3 else 0
        | .high => if row = 1 then 3 else 0
        | .toggle => if row = 0 then 0 else 3
        | .none => if (row = 5 ∨ row = 6) ∧ c % 2 = 0 then 1 else 0) ∧
    (∀ l b m, x.state = .done → x.decoder = true → x.boxes = l ++ b :: m → (∀ y ∈ l, y.last < b.first) → b.first ≤ c →
      c ≤ b.last →
      let side := c = b.first ∧ b.clipL = false ∨ c = b.last ∧ b.clipR = false
      let width := b.last + 1 - b.first
      let hex := (Nat.toDigits 16 b.value).map fun d => d.toUpper.toNat
      let completion : Bool × List Nat :=
        if b.more then if 8 ≤ width then (false, chars "+") else (true, [])
        else if b.dense then (true, if b.error = true ∧ 8 ≤ width then chars "!" else [])
        else if b.error then if 8 ≤ width then (false, chars "!") else (true, [])
        else if 6 * hex.length + 2 ≤ width then (false, hex) else (true, [])
      (row = 0 → px = 0) ∧ (row = 1 ∨ row = 11 → px = 3) ∧ (1 ≤ row → side → px = 3) ∧
        (2 ≤ row → row ≤ 10 → ¬ side →
          px = if textAt completion.2 2 (b.first + (width - 6 * completion.2.length) / 2) row c then 3
            else if completion.1 then 2 else 0)) ∧
    (x.state = .done → x.decoder = true → (∀ y ∈ x.boxes, c < y.first ∨ y.last < c) → px = 0) ∧
    ∀ b, x.state = .failed → x.banner = some b →
      px = if textAt b.text 2 ((280 - 6 * b.text.length) / 2) row c then 3 else 1) ∧
  ∀ s : State,
    s.panelPins.bl = (s.bus.panel && decide (s.view.blPhase < s.view.blLevel.toNat * 1024)) ∧
    (s.view.push = none → s.panelPins.pcs = false ∧ s.panelPins.pwr = false ∧ s.panelPins.pd = 0) ∧
    ∀ b, s.view.push = some b → s.bus.panel = true → (s.time - b).toNat < 153600 →
      s.panelPins.pcs = true ∧ s.panelPins.pd = s.view.readByte ((s.time - b).toNat / 8) ∧
        (s.panelPins.pwr = true ↔ 2 ≤ (s.time - b).toNat % 8 ∧ (s.time - b).toNat % 8 ≤ 5)
end
end

