-- ==== Sys2Proof/Laws/Frames.lean ====
section
/-! SUPPORT. For every shared operation over the state, the parts of the state it leaves as they are: one lemma for each
operation, tagged for the simplifier, so that no later proof unfolds an operation to find what it does not touch. -/

namespace Sys2Proof.Machine

/-- What no element of a list changes, a fold over the list does not change. -/
theorem foldl_keeps {σ α β : Type} (p : σ → β) (f : σ → α → σ) (h : ∀ s a, p (f s a) = p s) (l : List α) (s : σ) :
    p (l.foldl f s) = p s := by
  induction l generalizing s with
  | nil => rfl
  | cons a l ih => rw [List.foldl_cons, ih, h]

/-! ## Queue, word memory, peers -/

@[simp] theorem State.tickOrder_frame (s : State) :
    s.tickOrder.pending = s.pending ∧ s.tickOrder.time = s.time ∧ s.tickOrder.pins = s.pins ∧
      s.tickOrder.frontEnd = s.frontEnd ∧ s.tickOrder.store = s.store ∧ s.tickOrder.session = s.session ∧
      s.tickOrder.sequencer = s.sequencer ∧ s.tickOrder.mark = s.mark ∧ s.tickOrder.decoders = s.decoders ∧
      s.tickOrder.words = s.words ∧ s.tickOrder.bus = s.bus ∧ s.tickOrder.peers = s.peers ∧
      s.tickOrder.asks = s.asks ∧ s.tickOrder.view = s.view ∧ s.tickOrder.choice = s.choice := by
  unfold State.tickOrder; (try dsimp only); simp

@[simp] theorem State.load_frame (p : Plan) (s : State) :
    (s.load p).pending = s.pending ∧ (s.load p).time = s.time ∧ (s.load p).pins = s.pins ∧
      (s.load p).store = s.store ∧ (s.load p).session = s.session ∧ (s.load p).sequencer = s.sequencer ∧
      (s.load p).mark = s.mark ∧ (s.load p).decoders = s.decoders ∧ (s.load p).words = s.words ∧
      (s.load p).bus = s.bus ∧ (s.load p).peers = s.peers ∧ (s.load p).asks = s.asks ∧ (s.load p).view = s.view ∧
      (s.load p).order = s.order ∧ (s.load p).choice = s.choice := by
  unfold State.load; (try dsimp only); simp

@[simp] theorem State.enqueue_frame (o : Origin) (f : TxFrame) (s : State) :
    (s.enqueue o f).pending = s.pending ∧ (s.enqueue o f).time = s.time ∧ (s.enqueue o f).pins = s.pins ∧
      (s.enqueue o f).frontEnd = s.frontEnd ∧ (s.enqueue o f).store = s.store ∧
      (s.enqueue o f).session = s.session ∧ (s.enqueue o f).sequencer = s.sequencer ∧
      (s.enqueue o f).mark = s.mark ∧ (s.enqueue o f).decoders = s.decoders ∧ (s.enqueue o f).words = s.words ∧
      (s.enqueue o f).peers = s.peers ∧ (s.enqueue o f).asks = s.asks ∧ (s.enqueue o f).view = s.view ∧
      (s.enqueue o f).choice = s.choice := by
  unfold State.enqueue; (try dsimp only); simp

@[simp] theorem State.withdraw_frame (p : QEntry → Bool) (s : State) :
    (s.withdraw p).pending = s.pending ∧ (s.withdraw p).time = s.time ∧ (s.withdraw p).pins = s.pins ∧
      (s.withdraw p).frontEnd = s.frontEnd ∧ (s.withdraw p).store = s.store ∧ (s.withdraw p).session = s.session ∧
      (s.withdraw p).sequencer = s.sequencer ∧ (s.withdraw p).mark = s.mark ∧ (s.withdraw p).decoders = s.decoders ∧
      (s.withdraw p).words = s.words ∧ (s.withdraw p).peers = s.peers ∧ (s.withdraw p).asks = s.asks ∧
      (s.withdraw p).view = s.view ∧ (s.withdraw p).order = s.order ∧ (s.withdraw p).choice = s.choice := by
  unfold State.withdraw; (try dsimp only); simp

@[simp] theorem State.dropWire_frame (s : State) :
    s.dropWire.pending = s.pending ∧ s.dropWire.time = s.time ∧ s.dropWire.pins = s.pins ∧
      s.dropWire.frontEnd = s.frontEnd ∧ s.dropWire.store = s.store ∧ s.dropWire.session = s.session ∧
      s.dropWire.sequencer = s.sequencer ∧ s.dropWire.mark = s.mark ∧ s.dropWire.decoders = s.decoders ∧
      s.dropWire.words = s.words ∧ s.dropWire.peers = s.peers ∧ s.dropWire.asks = s.asks ∧ s.dropWire.view = s.view ∧
      s.dropWire.order = s.order ∧ s.dropWire.choice = s.choice := by
  unfold State.dropWire; (try dsimp only); simp

@[simp] theorem State.returnFrame_frame (e : QEntry) (s : State) :
    (s.returnFrame e).pending = s.pending ∧ (s.returnFrame e).time = s.time ∧ (s.returnFrame e).pins = s.pins ∧
      (s.returnFrame e).frontEnd = s.frontEnd ∧ (s.returnFrame e).store = s.store ∧
      (s.returnFrame e).sequencer = s.sequencer ∧ (s.returnFrame e).mark = s.mark ∧
      (s.returnFrame e).decoders = s.decoders ∧ (s.returnFrame e).bus = s.bus ∧
      (s.returnFrame e).choice = s.choice := by
  unfold State.returnFrame; (try dsimp only); (repeat' split) <;> simp

@[simp] theorem State.placeUrgent_frame (o : Origin) (f : TxFrame) (s : State) :
    (s.placeUrgent o f).pending = s.pending ∧ (s.placeUrgent o f).time = s.time ∧ (s.placeUrgent o f).pins = s.pins ∧
      (s.placeUrgent o f).frontEnd = s.frontEnd ∧ (s.placeUrgent o f).store = s.store ∧
      (s.placeUrgent o f).sequencer = s.sequencer ∧ (s.placeUrgent o f).mark = s.mark ∧
      (s.placeUrgent o f).decoders = s.decoders ∧ (s.placeUrgent o f).choice = s.choice := by
  unfold State.placeUrgent; (try dsimp only); (repeat' split) <;> simp

@[simp] theorem State.placeTimeNote_frame (s : State) :
    s.placeTimeNote.pending = s.pending ∧ s.placeTimeNote.time = s.time ∧ s.placeTimeNote.pins = s.pins ∧
      s.placeTimeNote.frontEnd = s.frontEnd ∧ s.placeTimeNote.store = s.store ∧
      s.placeTimeNote.sequencer = s.sequencer ∧ s.placeTimeNote.mark = s.mark ∧
      s.placeTimeNote.decoders = s.decoders ∧ s.placeTimeNote.choice = s.choice := by
  unfold State.placeTimeNote; (try dsimp only); (repeat' split) <;> simp

@[simp] theorem State.offerWord_frame (q : QueueId) (w : Word) (s : State) :
    (s.offerWord q w).pending = s.pending ∧ (s.offerWord q w).time = s.time ∧ (s.offerWord q w).pins = s.pins ∧
      (s.offerWord q w).frontEnd = s.frontEnd ∧ (s.offerWord q w).store = s.store ∧
      (s.offerWord q w).session = s.session ∧ (s.offerWord q w).sequencer = s.sequencer ∧
      (s.offerWord q w).mark = s.mark ∧ (s.offerWord q w).decoders = s.decoders ∧ (s.offerWord q w).bus = s.bus ∧
      (s.offerWord q w).peers = s.peers ∧ (s.offerWord q w).asks = s.asks ∧ (s.offerWord q w).view = s.view ∧
      (s.offerWord q w).choice = s.choice := by
  unfold State.offerWord; (try dsimp only); (repeat' split) <;> simp

@[simp] theorem State.routeTo_frame (d : Dest) (w : Word) (s : State) :
    (s.routeTo d w).pending = s.pending ∧ (s.routeTo d w).time = s.time ∧ (s.routeTo d w).pins = s.pins ∧
      (s.routeTo d w).frontEnd = s.frontEnd ∧ (s.routeTo d w).store = s.store ∧ (s.routeTo d w).session = s.session ∧
      (s.routeTo d w).sequencer = s.sequencer ∧ (s.routeTo d w).mark = s.mark ∧
      (s.routeTo d w).decoders = s.decoders ∧ (s.routeTo d w).bus = s.bus ∧ (s.routeTo d w).peers = s.peers ∧
      (s.routeTo d w).asks = s.asks ∧ (s.routeTo d w).view = s.view ∧ (s.routeTo d w).choice = s.choice := by
  unfold State.routeTo; (try dsimp only); (repeat' split) <;> simp

@[simp] theorem State.filterWord_frame (w : Word) (s : State) :
    (s.filterWord w).pending = s.pending ∧ (s.filterWord w).time = s.time ∧ (s.filterWord w).pins = s.pins ∧
      (s.filterWord w).frontEnd = s.frontEnd ∧ (s.filterWord w).store = s.store ∧
      (s.filterWord w).session = s.session ∧ (s.filterWord w).sequencer = s.sequencer ∧
      (s.filterWord w).mark = s.mark ∧ (s.filterWord w).decoders = s.decoders ∧ (s.filterWord w).bus = s.bus ∧
      (s.filterWord w).peers = s.peers ∧ (s.filterWord w).asks = s.asks ∧ (s.filterWord w).view = s.view ∧
      (s.filterWord w).choice = s.choice := by
  unfold State.filterWord; (try dsimp only); (repeat' split) <;> simp

@[simp] theorem State.setPeer_frame (i : Station) (p : Peer) (s : State) :
    (s.setPeer i p).pending = s.pending ∧ (s.setPeer i p).time = s.time ∧ (s.setPeer i p).pins = s.pins ∧
      (s.setPeer i p).frontEnd = s.frontEnd ∧ (s.setPeer i p).store = s.store ∧ (s.setPeer i p).session = s.session ∧
      (s.setPeer i p).sequencer = s.sequencer ∧ (s.setPeer i p).mark = s.mark ∧
      (s.setPeer i p).decoders = s.decoders ∧ (s.setPeer i p).words = s.words ∧ (s.setPeer i p).bus = s.bus ∧
      (s.setPeer i p).asks = s.asks ∧ (s.setPeer i p).view = s.view ∧ (s.setPeer i p).order = s.order ∧
      (s.setPeer i p).choice = s.choice := by
  unfold State.setPeer; (try dsimp only); simp

@[simp] theorem State.rollDue_frame (a : Bool) (s : State) :
    (s.rollDue a).pending = s.pending ∧ (s.rollDue a).time = s.time ∧ (s.rollDue a).pins = s.pins ∧
      (s.rollDue a).frontEnd = s.frontEnd ∧ (s.rollDue a).store = s.store ∧ (s.rollDue a).session = s.session ∧
      (s.rollDue a).sequencer = s.sequencer ∧ (s.rollDue a).mark = s.mark ∧ (s.rollDue a).decoders = s.decoders ∧
      (s.rollDue a).words = s.words ∧ (s.rollDue a).bus = s.bus ∧ (s.rollDue a).asks = s.asks ∧
      (s.rollDue a).view = s.view ∧ (s.rollDue a).choice = s.choice := by
  unfold State.rollDue; (try dsimp only); (repeat' split) <;> simp

@[simp] theorem State.hear_frame (f : RxFrame) (s : State) :
    (s.hear f).pending = s.pending ∧ (s.hear f).time = s.time ∧ (s.hear f).pins = s.pins ∧
      (s.hear f).frontEnd = s.frontEnd ∧ (s.hear f).store = s.store ∧ (s.hear f).session = s.session ∧
      (s.hear f).sequencer = s.sequencer ∧ (s.hear f).mark = s.mark ∧ (s.hear f).decoders = s.decoders ∧
      (s.hear f).words = s.words ∧ (s.hear f).bus = s.bus ∧ (s.hear f).asks = s.asks ∧ (s.hear f).view = s.view ∧
      (s.hear f).order = s.order ∧ (s.hear f).choice = s.choice := by
  unfold State.hear; (repeat' split) <;> simp

@[simp] theorem State.takeGood_frame (f : RxFrame) (s : State) :
    (s.takeGood f).pending = s.pending ∧ (s.takeGood f).time = s.time ∧ (s.takeGood f).pins = s.pins ∧
      (s.takeGood f).frontEnd = s.frontEnd ∧ (s.takeGood f).store = s.store ∧ (s.takeGood f).session = s.session ∧
      (s.takeGood f).sequencer = s.sequencer ∧ (s.takeGood f).mark = s.mark ∧ (s.takeGood f).decoders = s.decoders ∧
      (s.takeGood f).words = s.words ∧ (s.takeGood f).asks = s.asks ∧ (s.takeGood f).view = s.view ∧
      (s.takeGood f).order = s.order ∧ (s.takeGood f).choice = s.choice := by
  unfold State.takeGood; (try dsimp only); simp

/-! ## View engine -/

@[simp] theorem State.setFetch_frame (n : Fin 16) (f : Fetch) (s : State) :
    (s.setFetch n f).pending = s.pending ∧ (s.setFetch n f).time = s.time ∧ (s.setFetch n f).pins = s.pins ∧
      (s.setFetch n f).frontEnd = s.frontEnd ∧ (s.setFetch n f).store = s.store ∧
      (s.setFetch n f).session = s.session ∧ (s.setFetch n f).sequencer = s.sequencer ∧
      (s.setFetch n f).mark = s.mark ∧ (s.setFetch n f).decoders = s.decoders ∧ (s.setFetch n f).words = s.words ∧
      (s.setFetch n f).bus = s.bus ∧ (s.setFetch n f).peers = s.peers ∧ (s.setFetch n f).asks = s.asks ∧
      (s.setFetch n f).order = s.order ∧ (s.setFetch n f).choice = s.choice := by
  unfold State.setFetch; (try dsimp only); simp

@[simp] theorem State.offerOwn_frame (n : Fin 16) (s : State) :
    (s.offerOwn n).pending = s.pending ∧ (s.offerOwn n).time = s.time ∧ (s.offerOwn n).pins = s.pins ∧
      (s.offerOwn n).frontEnd = s.frontEnd ∧ (s.offerOwn n).store = s.store ∧ (s.offerOwn n).session = s.session ∧
      (s.offerOwn n).sequencer = s.sequencer ∧ (s.offerOwn n).mark = s.mark ∧ (s.offerOwn n).decoders = s.decoders ∧
      (s.offerOwn n).words = s.words ∧ (s.offerOwn n).bus = s.bus ∧ (s.offerOwn n).peers = s.peers ∧
      (s.offerOwn n).choice = s.choice := by
  unfold State.offerOwn; (try dsimp only); (repeat' split) <;> simp

@[simp] theorem State.placeFreed_frame (s : State) :
    s.placeFreed.pending = s.pending ∧ s.placeFreed.time = s.time ∧ s.placeFreed.pins = s.pins ∧
      s.placeFreed.frontEnd = s.frontEnd ∧ s.placeFreed.store = s.store ∧ s.placeFreed.session = s.session ∧
      s.placeFreed.sequencer = s.sequencer ∧ s.placeFreed.mark = s.mark ∧ s.placeFreed.decoders = s.decoders ∧
      s.placeFreed.words = s.words ∧ s.placeFreed.bus = s.bus ∧ s.placeFreed.peers = s.peers ∧
      s.placeFreed.choice = s.choice := by
  unfold State.placeFreed
  refine ⟨?_, ?_, ?_, ?_, ?_, ?_, ?_, ?_, ?_, ?_, ?_, ?_, ?_⟩
  all_goals exact foldl_keeps _ _ (fun s n => by simp) _ s

@[simp] theorem State.makeAsk_frame (n : Fin 16) (f : Fetch) (a : TxFrame) (s : State) :
    (s.makeAsk n f a).pending = s.pending ∧ (s.makeAsk n f a).time = s.time ∧ (s.makeAsk n f a).pins = s.pins ∧
      (s.makeAsk n f a).frontEnd = s.frontEnd ∧ (s.makeAsk n f a).store = s.store ∧
      (s.makeAsk n f a).session = s.session ∧ (s.makeAsk n f a).sequencer = s.sequencer ∧
      (s.makeAsk n f a).mark = s.mark ∧ (s.makeAsk n f a).decoders = s.decoders ∧ (s.makeAsk n f a).words = s.words ∧
      (s.makeAsk n f a).bus = s.bus ∧ (s.makeAsk n f a).peers = s.peers ∧ (s.makeAsk n f a).asks = s.asks ∧
      (s.makeAsk n f a).choice = s.choice := by
  unfold State.makeAsk; (try dsimp only); (repeat' split) <;> simp

@[simp] theorem State.startLane_frame (p : Pass) (z : StationTime) (n : Fin 16) (s : State) :
    (State.startLane p z s n).pending = s.pending ∧ (State.startLane p z s n).time = s.time ∧
      (State.startLane p z s n).pins = s.pins ∧ (State.startLane p z s n).frontEnd = s.frontEnd ∧
      (State.startLane p z s n).store = s.store ∧ (State.startLane p z s n).session = s.session ∧
      (State.startLane p z s n).sequencer = s.sequencer ∧ (State.startLane p z s n).mark = s.mark ∧
      (State.startLane p z s n).decoders = s.decoders ∧ (State.startLane p z s n).words = s.words ∧
      (State.startLane p z s n).bus = s.bus ∧ (State.startLane p z s n).peers = s.peers ∧
      (State.startLane p z s n).choice = s.choice := by
  unfold State.startLane; (try dsimp only); (repeat' split) <;> simp

@[simp] theorem State.abandonPass_frame (s : State) :
    s.abandonPass.pending = s.pending ∧ s.abandonPass.time = s.time ∧ s.abandonPass.pins = s.pins ∧
      s.abandonPass.frontEnd = s.frontEnd ∧ s.abandonPass.store = s.store ∧ s.abandonPass.session = s.session ∧
      s.abandonPass.sequencer = s.sequencer ∧ s.abandonPass.mark = s.mark ∧ s.abandonPass.decoders = s.decoders ∧
      s.abandonPass.words = s.words ∧ s.abandonPass.peers = s.peers ∧ s.abandonPass.order = s.order ∧
      s.abandonPass.choice = s.choice := by
  unfold State.abandonPass; (try dsimp only); simp

@[simp] theorem State.draw_frame (p : Pass) (s : State) :
    (s.draw p).pending = s.pending ∧ (s.draw p).time = s.time ∧ (s.draw p).pins = s.pins ∧
      (s.draw p).frontEnd = s.frontEnd ∧ (s.draw p).store = s.store ∧ (s.draw p).session = s.session ∧
      (s.draw p).sequencer = s.sequencer ∧ (s.draw p).mark = s.mark ∧ (s.draw p).decoders = s.decoders ∧
      (s.draw p).words = s.words ∧ (s.draw p).bus = s.bus ∧ (s.draw p).peers = s.peers ∧ (s.draw p).asks = s.asks ∧
      (s.draw p).order = s.order ∧ (s.draw p).choice = s.choice := by
  unfold State.draw; (try dsimp only); simp

@[simp] theorem State.checkPass_frame (s : State) :
    s.checkPass.pending = s.pending ∧ s.checkPass.time = s.time ∧ s.checkPass.pins = s.pins ∧
      s.checkPass.frontEnd = s.frontEnd ∧ s.checkPass.store = s.store ∧ s.checkPass.session = s.session ∧
      s.checkPass.sequencer = s.sequencer ∧ s.checkPass.mark = s.mark ∧ s.checkPass.decoders = s.decoders ∧
      s.checkPass.words = s.words ∧ s.checkPass.bus = s.bus ∧ s.checkPass.peers = s.peers ∧
      s.checkPass.asks = s.asks ∧ s.checkPass.order = s.order ∧ s.checkPass.choice = s.choice := by
  unfold State.checkPass; (try dsimp only); (repeat' split) <;> simp

@[simp] theorem State.startRender_frame (s : State) :
    s.startRender.pending = s.pending ∧ s.startRender.time = s.time ∧ s.startRender.pins = s.pins ∧
      s.startRender.frontEnd = s.frontEnd ∧ s.startRender.store = s.store ∧ s.startRender.session = s.session ∧
      s.startRender.sequencer = s.sequencer ∧ s.startRender.mark = s.mark ∧ s.startRender.decoders = s.decoders ∧
      s.startRender.words = s.words ∧ s.startRender.peers = s.peers ∧ s.startRender.choice = s.choice := by
  unfold State.startRender; (try dsimp only); repeat' split
  all_goals simp [foldl_keeps State.pending, foldl_keeps State.time, foldl_keeps State.pins, foldl_keeps State.frontEnd, foldl_keeps State.store, foldl_keeps State.session, foldl_keeps State.sequencer, foldl_keeps State.mark, foldl_keeps State.decoders, foldl_keeps State.words, foldl_keeps State.peers, foldl_keeps State.choice]

@[simp] theorem State.askPlaced_frame (t : Byte) (s : State) :
    (s.askPlaced t).pending = s.pending ∧ (s.askPlaced t).time = s.time ∧ (s.askPlaced t).pins = s.pins ∧
      (s.askPlaced t).frontEnd = s.frontEnd ∧ (s.askPlaced t).store = s.store ∧ (s.askPlaced t).session = s.session ∧
      (s.askPlaced t).sequencer = s.sequencer ∧ (s.askPlaced t).mark = s.mark ∧
      (s.askPlaced t).decoders = s.decoders ∧ (s.askPlaced t).words = s.words ∧ (s.askPlaced t).bus = s.bus ∧
      (s.askPlaced t).peers = s.peers ∧ (s.askPlaced t).asks = s.asks ∧ (s.askPlaced t).order = s.order ∧
      (s.askPlaced t).choice = s.choice := by
  unfold State.askPlaced; (try dsimp only); (repeat' split) <;> simp

@[simp] theorem State.askSent_frame (t : Byte) (s : State) :
    (s.askSent t).pending = s.pending ∧ (s.askSent t).time = s.time ∧ (s.askSent t).pins = s.pins ∧
      (s.askSent t).frontEnd = s.frontEnd ∧ (s.askSent t).store = s.store ∧ (s.askSent t).session = s.session ∧
      (s.askSent t).sequencer = s.sequencer ∧ (s.askSent t).mark = s.mark ∧ (s.askSent t).decoders = s.decoders ∧
      (s.askSent t).words = s.words ∧ (s.askSent t).bus = s.bus ∧ (s.askSent t).peers = s.peers ∧
      (s.askSent t).asks = s.asks ∧ (s.askSent t).order = s.order ∧ (s.askSent t).choice = s.choice := by
  unfold State.askSent; (repeat' split) <;> simp

@[simp] theorem State.askLost_frame (t : Byte) (s : State) :
    (s.askLost t).pending = s.pending ∧ (s.askLost t).time = s.time ∧ (s.askLost t).pins = s.pins ∧
      (s.askLost t).frontEnd = s.frontEnd ∧ (s.askLost t).store = s.store ∧ (s.askLost t).session = s.session ∧
      (s.askLost t).sequencer = s.sequencer ∧ (s.askLost t).mark = s.mark ∧ (s.askLost t).decoders = s.decoders ∧
      (s.askLost t).words = s.words ∧ (s.askLost t).bus = s.bus ∧ (s.askLost t).peers = s.peers ∧
      (s.askLost t).asks = s.asks ∧ (s.askLost t).order = s.order ∧ (s.askLost t).choice = s.choice := by
  unfold State.askLost; (repeat' split) <;> simp

@[simp] theorem State.failUnplaced_frame (h : Held) (s : State) :
    (s.failUnplaced h).pending = s.pending ∧ (s.failUnplaced h).time = s.time ∧ (s.failUnplaced h).pins = s.pins ∧
      (s.failUnplaced h).frontEnd = s.frontEnd ∧ (s.failUnplaced h).store = s.store ∧
      (s.failUnplaced h).session = s.session ∧ (s.failUnplaced h).sequencer = s.sequencer ∧
      (s.failUnplaced h).mark = s.mark ∧ (s.failUnplaced h).decoders = s.decoders ∧
      (s.failUnplaced h).words = s.words ∧ (s.failUnplaced h).bus = s.bus ∧ (s.failUnplaced h).peers = s.peers ∧
      (s.failUnplaced h).asks = s.asks ∧ (s.failUnplaced h).order = s.order ∧ (s.failUnplaced h).choice = s.choice := by
  unfold State.failUnplaced; (try dsimp only); (repeat' split) <;> simp

@[simp] theorem State.failUnplacedAsks_frame (s : State) :
    s.failUnplacedAsks.pending = s.pending ∧ s.failUnplacedAsks.time = s.time ∧ s.failUnplacedAsks.pins = s.pins ∧
      s.failUnplacedAsks.frontEnd = s.frontEnd ∧ s.failUnplacedAsks.store = s.store ∧
      s.failUnplacedAsks.session = s.session ∧ s.failUnplacedAsks.sequencer = s.sequencer ∧
      s.failUnplacedAsks.mark = s.mark ∧ s.failUnplacedAsks.decoders = s.decoders ∧
      s.failUnplacedAsks.words = s.words ∧ s.failUnplacedAsks.bus = s.bus ∧ s.failUnplacedAsks.peers = s.peers ∧
      s.failUnplacedAsks.asks = s.asks ∧ s.failUnplacedAsks.order = s.order ∧ s.failUnplacedAsks.choice = s.choice := by
  unfold State.failUnplacedAsks; (try dsimp only)
  simp [foldl_keeps State.pending, foldl_keeps State.time, foldl_keeps State.pins, foldl_keeps State.frontEnd, foldl_keeps State.store, foldl_keeps State.session, foldl_keeps State.sequencer, foldl_keeps State.mark, foldl_keeps State.decoders, foldl_keeps State.words, foldl_keeps State.bus, foldl_keeps State.peers, foldl_keeps State.asks, foldl_keeps State.order, foldl_keeps State.choice]

@[simp] theorem State.takePart_frame (i : Station) (p : Part) (s : State) :
    (s.takePart i p).pending = s.pending ∧ (s.takePart i p).time = s.time ∧ (s.takePart i p).pins = s.pins ∧
      (s.takePart i p).frontEnd = s.frontEnd ∧ (s.takePart i p).store = s.store ∧
      (s.takePart i p).session = s.session ∧ (s.takePart i p).sequencer = s.sequencer ∧
      (s.takePart i p).mark = s.mark ∧ (s.takePart i p).decoders = s.decoders ∧ (s.takePart i p).words = s.words ∧
      (s.takePart i p).bus = s.bus ∧ (s.takePart i p).peers = s.peers ∧ (s.takePart i p).asks = s.asks ∧
      (s.takePart i p).order = s.order ∧ (s.takePart i p).choice = s.choice := by
  unfold State.takePart; (repeat' split) <;> simp

@[simp] theorem State.takeReply_frame (b : Bool) (f : RxFrame) (s : State) :
    (State.takeReply b f s).pending = s.pending ∧ (State.takeReply b f s).time = s.time ∧
      (State.takeReply b f s).pins = s.pins ∧ (State.takeReply b f s).frontEnd = s.frontEnd ∧
      (State.takeReply b f s).store = s.store ∧ (State.takeReply b f s).session = s.session ∧
      (State.takeReply b f s).sequencer = s.sequencer ∧ (State.takeReply b f s).mark = s.mark ∧
      (State.takeReply b f s).decoders = s.decoders ∧ (State.takeReply b f s).words = s.words ∧
      (State.takeReply b f s).bus = s.bus ∧ (State.takeReply b f s).peers = s.peers ∧
      (State.takeReply b f s).asks = s.asks ∧ (State.takeReply b f s).order = s.order ∧
      (State.takeReply b f s).choice = s.choice := by
  unfold State.takeReply; (repeat' split) <;> simp

@[simp] theorem State.writeView_frame (i : Byte) (p : List Byte) (s : State) :
    (State.writeView i p s).pending = s.pending ∧ (State.writeView i p s).time = s.time ∧
      (State.writeView i p s).pins = s.pins ∧ (State.writeView i p s).frontEnd = s.frontEnd ∧
      (State.writeView i p s).store = s.store ∧ (State.writeView i p s).session = s.session ∧
      (State.writeView i p s).sequencer = s.sequencer ∧ (State.writeView i p s).mark = s.mark ∧
      (State.writeView i p s).decoders = s.decoders ∧ (State.writeView i p s).words = s.words ∧
      (State.writeView i p s).peers = s.peers ∧ (State.writeView i p s).choice = s.choice := by
  unfold State.writeView; (try dsimp only); (repeat' split) <;> simp

@[simp] theorem State.takeViewPart_frame (f : RxFrame) (s : State) :
    (State.takeViewPart f s).pending = s.pending ∧ (State.takeViewPart f s).time = s.time ∧
      (State.takeViewPart f s).pins = s.pins ∧ (State.takeViewPart f s).frontEnd = s.frontEnd ∧
      (State.takeViewPart f s).store = s.store ∧ (State.takeViewPart f s).session = s.session ∧
      (State.takeViewPart f s).sequencer = s.sequencer ∧ (State.takeViewPart f s).mark = s.mark ∧
      (State.takeViewPart f s).decoders = s.decoders ∧ (State.takeViewPart f s).words = s.words ∧
      (State.takeViewPart f s).peers = s.peers ∧ (State.takeViewPart f s).choice = s.choice := by
  unfold State.takeViewPart; (try dsimp only); (repeat' split) <;> simp

@[simp] theorem State.takeStatusNote_frame (f : RxFrame) (s : State) :
    (State.takeStatusNote f s).pending = s.pending ∧ (State.takeStatusNote f s).time = s.time ∧
      (State.takeStatusNote f s).pins = s.pins ∧ (State.takeStatusNote f s).frontEnd = s.frontEnd ∧
      (State.takeStatusNote f s).store = s.store ∧ (State.takeStatusNote f s).session = s.session ∧
      (State.takeStatusNote f s).sequencer = s.sequencer ∧ (State.takeStatusNote f s).mark = s.mark ∧
      (State.takeStatusNote f s).decoders = s.decoders ∧ (State.takeStatusNote f s).words = s.words ∧
      (State.takeStatusNote f s).peers = s.peers ∧ (State.takeStatusNote f s).choice = s.choice := by
  unfold State.takeStatusNote; (repeat' split) <;> simp

@[simp] theorem State.expireDeadline_frame (n : Fin 16) (s : State) :
    (s.expireDeadline n).pending = s.pending ∧ (s.expireDeadline n).time = s.time ∧
      (s.expireDeadline n).pins = s.pins ∧ (s.expireDeadline n).frontEnd = s.frontEnd ∧
      (s.expireDeadline n).store = s.store ∧ (s.expireDeadline n).session = s.session ∧
      (s.expireDeadline n).sequencer = s.sequencer ∧ (s.expireDeadline n).mark = s.mark ∧
      (s.expireDeadline n).decoders = s.decoders ∧ (s.expireDeadline n).words = s.words ∧
      (s.expireDeadline n).bus = s.bus ∧ (s.expireDeadline n).peers = s.peers ∧ (s.expireDeadline n).asks = s.asks ∧
      (s.expireDeadline n).choice = s.choice := by
  unfold State.expireDeadline; (try dsimp only); (repeat' split) <;> simp

@[simp] theorem State.reask_frame (n : Fin 16) (s : State) :
    (s.reask n).pending = s.pending ∧ (s.reask n).time = s.time ∧ (s.reask n).pins = s.pins ∧
      (s.reask n).frontEnd = s.frontEnd ∧ (s.reask n).store = s.store ∧ (s.reask n).session = s.session ∧
      (s.reask n).sequencer = s.sequencer ∧ (s.reask n).mark = s.mark ∧ (s.reask n).decoders = s.decoders ∧
      (s.reask n).words = s.words ∧ (s.reask n).bus = s.bus ∧ (s.reask n).peers = s.peers ∧
      (s.reask n).asks = s.asks ∧ (s.reask n).choice = s.choice := by
  unfold State.reask; (repeat' split) <;> simp

@[simp] theorem State.endPush_frame (s : State) :
    s.endPush.pending = s.pending ∧ s.endPush.time = s.time ∧ s.endPush.pins = s.pins ∧
      s.endPush.frontEnd = s.frontEnd ∧ s.endPush.store = s.store ∧ s.endPush.session = s.session ∧
      s.endPush.sequencer = s.sequencer ∧ s.endPush.mark = s.mark ∧ s.endPush.decoders = s.decoders ∧
      s.endPush.words = s.words ∧ s.endPush.bus = s.bus ∧ s.endPush.peers = s.peers ∧ s.endPush.asks = s.asks ∧
      s.endPush.order = s.order ∧ s.endPush.choice = s.choice := by
  unfold State.endPush; (try dsimp only); (repeat' split) <;> simp

/-! ## Session notes and notices -/

@[simp] theorem State.produceNote_frame (k : NoteKind) (f : TxFrame) (s : State) :
    (s.produceNote k f).pending = s.pending ∧ (s.produceNote k f).time = s.time ∧ (s.produceNote k f).pins = s.pins ∧
      (s.produceNote k f).frontEnd = s.frontEnd ∧ (s.produceNote k f).store = s.store ∧
      (s.produceNote k f).sequencer = s.sequencer ∧ (s.produceNote k f).mark = s.mark ∧
      (s.produceNote k f).decoders = s.decoders ∧ (s.produceNote k f).words = s.words ∧
      (s.produceNote k f).bus = s.bus ∧ (s.produceNote k f).peers = s.peers ∧ (s.produceNote k f).asks = s.asks ∧
      (s.produceNote k f).view = s.view ∧ (s.produceNote k f).choice = s.choice := by
  unfold State.produceNote; (try dsimp only); simp

@[simp] theorem State.noteChange_frame (t : StationTime) (s : State) :
    (s.noteChange t).pending = s.pending ∧ (s.noteChange t).time = s.time ∧ (s.noteChange t).pins = s.pins ∧
      (s.noteChange t).frontEnd = s.frontEnd ∧ (s.noteChange t).store = s.store ∧
      (s.noteChange t).sequencer = s.sequencer ∧ (s.noteChange t).mark = s.mark ∧
      (s.noteChange t).decoders = s.decoders ∧ (s.noteChange t).words = s.words ∧ (s.noteChange t).bus = s.bus ∧
      (s.noteChange t).peers = s.peers ∧ (s.noteChange t).asks = s.asks ∧ (s.noteChange t).view = s.view ∧
      (s.noteChange t).choice = s.choice := by
  unfold State.noteChange; simp

@[simp] theorem State.noteRefusal_frame (i : Option Nat) (s : State) :
    (s.noteRefusal i).pending = s.pending ∧ (s.noteRefusal i).time = s.time ∧ (s.noteRefusal i).pins = s.pins ∧
      (s.noteRefusal i).frontEnd = s.frontEnd ∧ (s.noteRefusal i).store = s.store ∧
      (s.noteRefusal i).sequencer = s.sequencer ∧ (s.noteRefusal i).mark = s.mark ∧
      (s.noteRefusal i).decoders = s.decoders ∧ (s.noteRefusal i).words = s.words ∧ (s.noteRefusal i).bus = s.bus ∧
      (s.noteRefusal i).peers = s.peers ∧ (s.noteRefusal i).asks = s.asks ∧ (s.noteRefusal i).view = s.view ∧
      (s.noteRefusal i).choice = s.choice := by
  unfold State.noteRefusal; simp

@[simp] theorem State.noteClosure_frame (k : Fin 8) (s : State) :
    (s.noteClosure k).pending = s.pending ∧ (s.noteClosure k).time = s.time ∧ (s.noteClosure k).pins = s.pins ∧
      (s.noteClosure k).frontEnd = s.frontEnd ∧ (s.noteClosure k).store = s.store ∧
      (s.noteClosure k).sequencer = s.sequencer ∧ (s.noteClosure k).mark = s.mark ∧
      (s.noteClosure k).decoders = s.decoders ∧ (s.noteClosure k).words = s.words ∧ (s.noteClosure k).bus = s.bus ∧
      (s.noteClosure k).peers = s.peers ∧ (s.noteClosure k).asks = s.asks ∧ (s.noteClosure k).view = s.view ∧
      (s.noteClosure k).choice = s.choice := by
  unfold State.noteClosure; simp

@[simp] theorem State.setHeader_frame (k : Fin 8) (h : SegHeader) (s : State) :
    (s.setHeader k h).pending = s.pending ∧ (s.setHeader k h).time = s.time ∧ (s.setHeader k h).pins = s.pins ∧
      (s.setHeader k h).frontEnd = s.frontEnd ∧ (s.setHeader k h).session = s.session ∧
      (s.setHeader k h).sequencer = s.sequencer ∧ (s.setHeader k h).mark = s.mark ∧
      (s.setHeader k h).decoders = s.decoders ∧ (s.setHeader k h).words = s.words ∧ (s.setHeader k h).bus = s.bus ∧
      (s.setHeader k h).peers = s.peers ∧ (s.setHeader k h).asks = s.asks ∧ (s.setHeader k h).view = s.view ∧
      (s.setHeader k h).order = s.order ∧ (s.setHeader k h).choice = s.choice := by
  unfold State.setHeader; (try dsimp only); simp

@[simp] theorem State.deliverNotice_frame (s : State) :
    s.deliverNotice.pending = s.pending ∧ s.deliverNotice.time = s.time ∧ s.deliverNotice.pins = s.pins ∧
      s.deliverNotice.frontEnd = s.frontEnd ∧ s.deliverNotice.store = s.store ∧ s.deliverNotice.session = s.session ∧
      s.deliverNotice.mark = s.mark ∧ s.deliverNotice.decoders = s.decoders ∧ s.deliverNotice.words = s.words ∧
      s.deliverNotice.bus = s.bus ∧ s.deliverNotice.peers = s.peers ∧ s.deliverNotice.asks = s.asks ∧
      s.deliverNotice.view = s.view ∧ s.deliverNotice.order = s.order ∧ s.deliverNotice.choice = s.choice := by
  unfold State.deliverNotice; (repeat' split) <;> simp

@[simp] theorem State.endSession_frame (s : State) :
    s.endSession.pending = s.pending ∧ s.endSession.time = s.time ∧ s.endSession.pins = s.pins ∧
      s.endSession.store = s.store ∧ s.endSession.session = s.session ∧ s.endSession.words = s.words ∧
      s.endSession.bus = s.bus ∧ s.endSession.peers = s.peers ∧ s.endSession.asks = s.asks ∧
      s.endSession.view = s.view ∧ s.endSession.order = s.order ∧ s.endSession.choice = s.choice := by
  unfold State.endSession; (try dsimp only); simp

/-! ## Capture store -/

@[simp] theorem State.triggerRecord_frame (l : Layout) (k : Fin 8) (b : StationTime) (s : State) :
    (s.triggerRecord l k b).pending = s.pending ∧ (s.triggerRecord l k b).time = s.time ∧
      (s.triggerRecord l k b).pins = s.pins ∧ (s.triggerRecord l k b).frontEnd = s.frontEnd ∧
      (s.triggerRecord l k b).session = s.session ∧ (s.triggerRecord l k b).sequencer = s.sequencer ∧
      (s.triggerRecord l k b).decoders = s.decoders ∧ (s.triggerRecord l k b).words = s.words ∧
      (s.triggerRecord l k b).bus = s.bus ∧ (s.triggerRecord l k b).peers = s.peers ∧
      (s.triggerRecord l k b).asks = s.asks ∧ (s.triggerRecord l k b).view = s.view ∧
      (s.triggerRecord l k b).order = s.order ∧ (s.triggerRecord l k b).choice = s.choice := by
  unfold State.triggerRecord; (try dsimp only); (repeat' split) <;> simp

@[simp] theorem State.checkReady_frame (s : State) :
    s.checkReady.pending = s.pending ∧ s.checkReady.time = s.time ∧ s.checkReady.pins = s.pins ∧
      s.checkReady.frontEnd = s.frontEnd ∧ s.checkReady.store = s.store ∧ s.checkReady.decoders = s.decoders ∧
      s.checkReady.words = s.words ∧ s.checkReady.bus = s.bus ∧ s.checkReady.peers = s.peers ∧
      s.checkReady.asks = s.asks ∧ s.checkReady.view = s.view ∧ s.checkReady.order = s.order ∧
      s.checkReady.choice = s.choice := by
  unfold State.checkReady; (try dsimp only); (repeat' split) <;> simp

@[simp] theorem State.trigger_frame (l : Layout) (c : Current) (o : Offer) (late : Bool) (s : State) :
    (s.trigger l c o late).pending = s.pending ∧ (s.trigger l c o late).time = s.time ∧
      (s.trigger l c o late).pins = s.pins ∧ (s.trigger l c o late).frontEnd = s.frontEnd ∧
      (s.trigger l c o late).decoders = s.decoders ∧ (s.trigger l c o late).words = s.words ∧
      (s.trigger l c o late).bus = s.bus ∧ (s.trigger l c o late).peers = s.peers ∧
      (s.trigger l c o late).asks = s.asks ∧ (s.trigger l c o late).view = s.view ∧
      (s.trigger l c o late).choice = s.choice := by
  unfold State.trigger; (try dsimp only); (repeat' split) <;> simp

@[simp] theorem State.takeOffer_frame (o : Offer) (late : Bool) (s : State) :
    (s.takeOffer o late).pending = s.pending ∧ (s.takeOffer o late).time = s.time ∧ (s.takeOffer o late).pins = s.pins ∧
      (s.takeOffer o late).frontEnd = s.frontEnd ∧ (s.takeOffer o late).decoders = s.decoders ∧
      (s.takeOffer o late).words = s.words ∧ (s.takeOffer o late).bus = s.bus ∧ (s.takeOffer o late).peers = s.peers ∧
      (s.takeOffer o late).asks = s.asks ∧ (s.takeOffer o late).view = s.view ∧ (s.takeOffer o late).choice = s.choice := by
  unfold State.takeOffer; (try dsimp only); (repeat' split) <;> simp

@[simp] theorem State.offer_frame (o : Offer) (late : Bool) (s : State) :
    (s.offer o late).pending = s.pending ∧ (s.offer o late).time = s.time ∧ (s.offer o late).pins = s.pins ∧
      (s.offer o late).frontEnd = s.frontEnd ∧ (s.offer o late).decoders = s.decoders ∧
      (s.offer o late).words = s.words ∧ (s.offer o late).bus = s.bus ∧ (s.offer o late).peers = s.peers ∧
      (s.offer o late).asks = s.asks ∧ (s.offer o late).view = s.view ∧ (s.offer o late).choice = s.choice := by
  unfold State.offer; (repeat' split) <;> simp

@[simp] theorem State.takeOffers_frame (s : State) :
    s.takeOffers.pending = s.pending ∧ s.takeOffers.time = s.time ∧ s.takeOffers.pins = s.pins ∧ s.takeOffers.frontEnd = s.frontEnd ∧
      s.takeOffers.decoders = s.decoders ∧ s.takeOffers.words = s.words ∧ s.takeOffers.bus = s.bus ∧ s.takeOffers.peers = s.peers ∧
      s.takeOffers.asks = s.asks ∧ s.takeOffers.view = s.view ∧ s.takeOffers.choice = s.choice := by
  unfold State.takeOffers; split
  · simp
  · refine ⟨?_, ?_, ?_, ?_, ?_, ?_, ?_, ?_, ?_, ?_, ?_⟩
    · exact foldl_keeps (fun s : State => s.pending) _ (fun s h => by simp) _ _
    · exact foldl_keeps (fun s : State => s.time) _ (fun s h => by simp) _ _
    · exact foldl_keeps (fun s : State => s.pins) _ (fun s h => by simp) _ _
    · exact foldl_keeps (fun s : State => s.frontEnd) _ (fun s h => by simp) _ _
    · exact foldl_keeps (fun s : State => s.decoders) _ (fun s h => by simp) _ _
    · exact foldl_keeps (fun s : State => s.words) _ (fun s h => by simp) _ _
    · exact foldl_keeps (fun s : State => s.bus) _ (fun s h => by simp) _ _
    · exact foldl_keeps (fun s : State => s.peers) _ (fun s h => by simp) _ _
    · exact foldl_keeps (fun s : State => s.asks) _ (fun s h => by simp) _ _
    · exact foldl_keeps (fun s : State => s.view) _ (fun s h => by simp) _ _
    · exact foldl_keeps (fun s : State => s.choice) _ (fun s h => by simp) _ _

@[simp] theorem State.startSegment_frame (l : Layout) (k : Fin 8) (b : StationTime) (s : State) :
    (s.startSegment l k b).pending = s.pending ∧ (s.startSegment l k b).time = s.time ∧
      (s.startSegment l k b).pins = s.pins ∧ (s.startSegment l k b).frontEnd = s.frontEnd ∧
      (s.startSegment l k b).sequencer = s.sequencer ∧ (s.startSegment l k b).mark = s.mark ∧
      (s.startSegment l k b).decoders = s.decoders ∧ (s.startSegment l k b).words = s.words ∧
      (s.startSegment l k b).bus = s.bus ∧ (s.startSegment l k b).peers = s.peers ∧
      (s.startSegment l k b).asks = s.asks ∧ (s.startSegment l k b).view = s.view ∧
      (s.startSegment l k b).order = s.order ∧ (s.startSegment l k b).choice = s.choice := by
  unfold State.startSegment; (try dsimp only); simp

@[simp] theorem State.takeStart_frame (l : Layout) (c : Current) (e : Element) (s : State) :
    (s.takeStart l c e).pending = s.pending ∧ (s.takeStart l c e).time = s.time ∧ (s.takeStart l c e).pins = s.pins ∧
      (s.takeStart l c e).frontEnd = s.frontEnd ∧ (s.takeStart l c e).decoders = s.decoders ∧
      (s.takeStart l c e).words = s.words ∧ (s.takeStart l c e).bus = s.bus ∧ (s.takeStart l c e).peers = s.peers ∧
      (s.takeStart l c e).asks = s.asks ∧ (s.takeStart l c e).view = s.view ∧ (s.takeStart l c e).order = s.order ∧
      (s.takeStart l c e).choice = s.choice := by
  unfold State.takeStart; (try dsimp only); (repeat' split) <;> simp

@[simp] theorem State.finishSegment_frame (k : Fin 8) (r : Bool) (s : State) :
    (s.finishSegment k r).pending = s.pending ∧ (s.finishSegment k r).time = s.time ∧
      (s.finishSegment k r).pins = s.pins ∧ (s.finishSegment k r).frontEnd = s.frontEnd ∧
      (s.finishSegment k r).sequencer = s.sequencer ∧ (s.finishSegment k r).mark = s.mark ∧
      (s.finishSegment k r).decoders = s.decoders ∧ (s.finishSegment k r).words = s.words ∧
      (s.finishSegment k r).peers = s.peers ∧ (s.finishSegment k r).choice = s.choice := by
  unfold State.finishSegment; (try dsimp only); (repeat' split) <;> simp

@[simp] theorem State.endSegment_frame (c : Current) (t : StationTime) (st : SegState) (s : State) :
    (s.endSegment c t st).pending = s.pending ∧ (s.endSegment c t st).time = s.time ∧
      (s.endSegment c t st).pins = s.pins ∧ (s.endSegment c t st).frontEnd = s.frontEnd ∧
      (s.endSegment c t st).session = s.session ∧ (s.endSegment c t st).sequencer = s.sequencer ∧
      (s.endSegment c t st).mark = s.mark ∧ (s.endSegment c t st).decoders = s.decoders ∧
      (s.endSegment c t st).words = s.words ∧ (s.endSegment c t st).bus = s.bus ∧
      (s.endSegment c t st).peers = s.peers ∧ (s.endSegment c t st).asks = s.asks ∧
      (s.endSegment c t st).view = s.view ∧ (s.endSegment c t st).order = s.order ∧
      (s.endSegment c t st).choice = s.choice := by
  unfold State.endSegment; (try dsimp only); simp

@[simp] theorem State.afterClose_frame (l : Layout) (k : Fin 8) (e : Element) (s : State) :
    (s.afterClose l k e).pending = s.pending ∧ (s.afterClose l k e).time = s.time ∧
      (s.afterClose l k e).pins = s.pins ∧ (s.afterClose l k e).words = s.words ∧ (s.afterClose l k e).bus = s.bus ∧
      (s.afterClose l k e).peers = s.peers ∧ (s.afterClose l k e).asks = s.asks ∧
      (s.afterClose l k e).view = s.view ∧ (s.afterClose l k e).choice = s.choice := by
  unfold State.afterClose; (try dsimp only); (repeat' split) <;> simp

@[simp] theorem State.closeSegment_frame (l : Layout) (c : Current) (e : Element) (s : State) :
    (s.closeSegment l c e).pending = s.pending ∧ (s.closeSegment l c e).time = s.time ∧
      (s.closeSegment l c e).pins = s.pins ∧ (s.closeSegment l c e).words = s.words ∧
      (s.closeSegment l c e).peers = s.peers ∧ (s.closeSegment l c e).choice = s.choice := by
  unfold State.closeSegment; (try dsimp only); simp

@[simp] theorem State.takeFirst_frame (l : Layout) (c : Current) (e : Element) (s : State) :
    (s.takeFirst l c e).pending = s.pending ∧ (s.takeFirst l c e).time = s.time ∧
      (s.takeFirst l c e).pins = s.pins ∧ (s.takeFirst l c e).words = s.words ∧
      (s.takeFirst l c e).peers = s.peers ∧ (s.takeFirst l c e).choice = s.choice := by
  unfold State.takeFirst; (try dsimp only); (repeat' split) <;> simp

@[simp] theorem State.takeElement_frame (l : Layout) (c : Current) (f : Reference) (e : Element) (s : State) :
    (s.takeElement l c f e).pending = s.pending ∧ (s.takeElement l c f e).time = s.time ∧
      (s.takeElement l c f e).pins = s.pins ∧ (s.takeElement l c f e).words = s.words ∧
      (s.takeElement l c f e).peers = s.peers ∧ (s.takeElement l c f e).choice = s.choice := by
  unfold State.takeElement; (try dsimp only); (repeat' split) <;> simp

@[simp] theorem State.takeBoundary_frame (e : Element) (s : State) :
    (s.takeBoundary e).pending = s.pending ∧ (s.takeBoundary e).time = s.time ∧ (s.takeBoundary e).pins = s.pins ∧
      (s.takeBoundary e).words = s.words ∧ (s.takeBoundary e).peers = s.peers ∧
      (s.takeBoundary e).choice = s.choice := by
  unfold State.takeBoundary; (repeat' split) <;> simp

@[simp] theorem State.storeElement_frame (e : Element) (s : State) :
    (s.storeElement e).pending = s.pending ∧ (s.storeElement e).time = s.time ∧ (s.storeElement e).pins = s.pins ∧
      (s.storeElement e).words = s.words ∧ (s.storeElement e).peers = s.peers ∧
      (s.storeElement e).choice = s.choice := by
  unfold State.storeElement; simp

@[simp] theorem State.cut_frame (r : Bool) (s : State) :
    (s.cut r).pending = s.pending ∧ (s.cut r).time = s.time ∧ (s.cut r).pins = s.pins ∧
      (s.cut r).words = s.words ∧ (s.cut r).peers = s.peers ∧ (s.cut r).choice = s.choice := by
  unfold State.cut; (try dsimp only); (repeat' split) <;> simp

@[simp] theorem State.abort_frame (r : Bool) (s : State) :
    (s.abort r).pending = s.pending ∧ (s.abort r).time = s.time ∧ (s.abort r).pins = s.pins ∧
      (s.abort r).words = s.words ∧ (s.abort r).peers = s.peers ∧ (s.abort r).choice = s.choice := by
  unfold State.abort; simp

@[simp] theorem State.writeFree_frame (l : Layout) (x : Staged) (s : State) :
    (s.writeFree l x).pending = s.pending ∧ (s.writeFree l x).time = s.time ∧ (s.writeFree l x).pins = s.pins ∧
      (s.writeFree l x).frontEnd = s.frontEnd ∧ (s.writeFree l x).session = s.session ∧
      (s.writeFree l x).sequencer = s.sequencer ∧ (s.writeFree l x).mark = s.mark ∧
      (s.writeFree l x).decoders = s.decoders ∧ (s.writeFree l x).words = s.words ∧ (s.writeFree l x).bus = s.bus ∧
      (s.writeFree l x).peers = s.peers ∧ (s.writeFree l x).asks = s.asks ∧ (s.writeFree l x).view = s.view ∧
      (s.writeFree l x).order = s.order ∧ (s.writeFree l x).choice = s.choice := by
  unfold State.writeFree; (try dsimp only); simp

@[simp] theorem State.writeOver_frame (l : Layout) (x : Staged) (s : State) :
    (s.writeOver l x).pending = s.pending ∧ (s.writeOver l x).time = s.time ∧ (s.writeOver l x).pins = s.pins ∧
      (s.writeOver l x).frontEnd = s.frontEnd ∧ (s.writeOver l x).session = s.session ∧
      (s.writeOver l x).sequencer = s.sequencer ∧ (s.writeOver l x).mark = s.mark ∧
      (s.writeOver l x).decoders = s.decoders ∧ (s.writeOver l x).bus = s.bus ∧ (s.writeOver l x).peers = s.peers ∧
      (s.writeOver l x).asks = s.asks ∧ (s.writeOver l x).view = s.view ∧ (s.writeOver l x).order = s.order ∧
      (s.writeOver l x).choice = s.choice := by
  unfold State.writeOver; (try dsimp only); (repeat' split) <;> simp

@[simp] theorem State.writeStaged_frame (s : State) :
    s.writeStaged.pending = s.pending ∧ s.writeStaged.time = s.time ∧ s.writeStaged.pins = s.pins ∧
      s.writeStaged.frontEnd = s.frontEnd ∧ s.writeStaged.sequencer = s.sequencer ∧ s.writeStaged.mark = s.mark ∧
      s.writeStaged.decoders = s.decoders ∧ s.writeStaged.peers = s.peers ∧ s.writeStaged.choice = s.choice := by
  unfold State.writeStaged; (try dsimp only); (repeat' split) <;> simp

/-! ## Mark unit and sequencer -/

@[simp] theorem State.takeFire_frame (f : Fire) (s : State) :
    (s.takeFire f).pending = s.pending ∧ (s.takeFire f).time = s.time ∧ (s.takeFire f).pins = s.pins ∧
      (s.takeFire f).frontEnd = s.frontEnd ∧ (s.takeFire f).decoders = s.decoders ∧ (s.takeFire f).words = s.words ∧
      (s.takeFire f).bus = s.bus ∧ (s.takeFire f).peers = s.peers ∧ (s.takeFire f).asks = s.asks ∧
      (s.takeFire f).view = s.view ∧ (s.takeFire f).choice = s.choice := by
  unfold State.takeFire; (repeat' split) <;> simp

@[simp] theorem State.takeHanded_frame (s : State) :
    s.takeHanded.pending = s.pending ∧ s.takeHanded.time = s.time ∧ s.takeHanded.pins = s.pins ∧
      s.takeHanded.frontEnd = s.frontEnd ∧ s.takeHanded.decoders = s.decoders ∧ s.takeHanded.words = s.words ∧
      s.takeHanded.bus = s.bus ∧ s.takeHanded.peers = s.peers ∧ s.takeHanded.asks = s.asks ∧
      s.takeHanded.view = s.view ∧ s.takeHanded.choice = s.choice := by
  unfold State.takeHanded; split <;> simp

@[simp] theorem State.queueMarkNote_frame (f : Fire) (t : StationTime) (s : State) :
    (s.queueMarkNote f t).pending = s.pending ∧ (s.queueMarkNote f t).time = s.time ∧
      (s.queueMarkNote f t).pins = s.pins ∧ (s.queueMarkNote f t).frontEnd = s.frontEnd ∧
      (s.queueMarkNote f t).store = s.store ∧ (s.queueMarkNote f t).sequencer = s.sequencer ∧
      (s.queueMarkNote f t).mark = s.mark ∧ (s.queueMarkNote f t).decoders = s.decoders ∧
      (s.queueMarkNote f t).choice = s.choice := by
  unfold State.queueMarkNote; simp

@[simp] theorem State.takeEdge_frame (e : MarkEdge) (late : Bool) (s : State) :
    (s.takeEdge e late).pending = s.pending ∧ (s.takeEdge e late).time = s.time ∧ (s.takeEdge e late).pins = s.pins ∧
      (s.takeEdge e late).frontEnd = s.frontEnd ∧ (s.takeEdge e late).decoders = s.decoders ∧
      (s.takeEdge e late).choice = s.choice := by
  unfold State.takeEdge; (try dsimp only); (repeat' split) <;> simp

@[simp] theorem State.requestRestart_frame (s : State) :
    s.requestRestart.pending = s.pending ∧ s.requestRestart.time = s.time ∧ s.requestRestart.pins = s.pins ∧
      s.requestRestart.frontEnd = s.frontEnd ∧ s.requestRestart.store = s.store ∧
      s.requestRestart.session = s.session ∧ s.requestRestart.mark = s.mark ∧
      s.requestRestart.decoders = s.decoders ∧ s.requestRestart.words = s.words ∧ s.requestRestart.bus = s.bus ∧
      s.requestRestart.peers = s.peers ∧ s.requestRestart.asks = s.asks ∧ s.requestRestart.view = s.view ∧
      s.requestRestart.order = s.order ∧ s.requestRestart.choice = s.choice := by
  unfold State.requestRestart; (try dsimp only); simp

@[simp] theorem State.fire_frame (st : Stage) (x : Bool) (e : Option (Fin 24)) (c b : StationTime) (s : State) :
    (s.fire st x e c b).pending = s.pending ∧ (s.fire st x e c b).time = s.time ∧ (s.fire st x e c b).pins = s.pins ∧
      (s.fire st x e c b).frontEnd = s.frontEnd ∧ (s.fire st x e c b).decoders = s.decoders ∧
      (s.fire st x e c b).words = s.words ∧ (s.fire st x e c b).bus = s.bus ∧ (s.fire st x e c b).peers = s.peers ∧
      (s.fire st x e c b).asks = s.asks ∧ (s.fire st x e c b).view = s.view ∧
      (s.fire st x e c b).choice = s.choice ∧
      (s.fire st x e c b).store = s.store ∧ (s.fire st x e c b).session = s.session ∧ (s.fire st x e c b).order = s.order := by
  unfold State.fire; (try dsimp only); simp

@[simp] theorem State.count_frame (st : Stage) (e : Option (Fin 24)) (c b : StationTime) (s : State) :
    (s.count st e c b).pending = s.pending ∧ (s.count st e c b).time = s.time ∧ (s.count st e c b).pins = s.pins ∧
      (s.count st e c b).frontEnd = s.frontEnd ∧ (s.count st e c b).decoders = s.decoders ∧
      (s.count st e c b).words = s.words ∧ (s.count st e c b).bus = s.bus ∧ (s.count st e c b).peers = s.peers ∧
      (s.count st e c b).asks = s.asks ∧ (s.count st e c b).view = s.view ∧ (s.count st e c b).choice = s.choice ∧
      (s.count st e c b).store = s.store ∧ (s.count st e c b).session = s.session ∧ (s.count st e c b).order = s.order := by
  unfold State.count; (try dsimp only); (repeat' split) <;> simp

@[simp] theorem State.evaluate_frame (st : Stage) (e : Element) (s : State) :
    (s.evaluate st e).pending = s.pending ∧ (s.evaluate st e).time = s.time ∧ (s.evaluate st e).pins = s.pins ∧
      (s.evaluate st e).frontEnd = s.frontEnd ∧ (s.evaluate st e).decoders = s.decoders ∧
      (s.evaluate st e).words = s.words ∧ (s.evaluate st e).bus = s.bus ∧ (s.evaluate st e).peers = s.peers ∧
      (s.evaluate st e).asks = s.asks ∧ (s.evaluate st e).view = s.view ∧ (s.evaluate st e).choice = s.choice ∧
      (s.evaluate st e).store = s.store ∧ (s.evaluate st e).session = s.session ∧ (s.evaluate st e).order = s.order := by
  unfold State.evaluate; (try dsimp only); (repeat' split) <;> simp

@[simp] theorem State.reportPattern_frame (st : Stage) (e : Element) (s : State) :
    (s.reportPattern st e).pending = s.pending ∧ (s.reportPattern st e).time = s.time ∧
      (s.reportPattern st e).pins = s.pins ∧ (s.reportPattern st e).frontEnd = s.frontEnd ∧
      (s.reportPattern st e).store = s.store ∧ (s.reportPattern st e).session = s.session ∧
      (s.reportPattern st e).sequencer = s.sequencer ∧ (s.reportPattern st e).decoders = s.decoders ∧
      (s.reportPattern st e).words = s.words ∧ (s.reportPattern st e).bus = s.bus ∧
      (s.reportPattern st e).peers = s.peers ∧ (s.reportPattern st e).asks = s.asks ∧
      (s.reportPattern st e).view = s.view ∧ (s.reportPattern st e).order = s.order ∧
      (s.reportPattern st e).choice = s.choice := by
  unfold State.reportPattern; (repeat' split) <;> simp

@[simp] theorem State.seqElement_frame (e : Element) (s : State) :
    (s.seqElement e).pending = s.pending ∧ (s.seqElement e).time = s.time ∧ (s.seqElement e).pins = s.pins ∧
      (s.seqElement e).frontEnd = s.frontEnd ∧ (s.seqElement e).decoders = s.decoders ∧
      (s.seqElement e).words = s.words ∧ (s.seqElement e).bus = s.bus ∧ (s.seqElement e).peers = s.peers ∧
      (s.seqElement e).asks = s.asks ∧ (s.seqElement e).view = s.view ∧ (s.seqElement e).choice = s.choice ∧
      (s.seqElement e).store = s.store ∧ (s.seqElement e).session = s.session ∧ (s.seqElement e).order = s.order := by
  unfold State.seqElement; (try dsimp only); (repeat' split) <;> simp

@[simp] theorem State.seqCue_frame (i : Fin 24) (t b : StationTime) (s : State) :
    (s.seqCue i t b).pending = s.pending ∧ (s.seqCue i t b).time = s.time ∧ (s.seqCue i t b).pins = s.pins ∧
      (s.seqCue i t b).frontEnd = s.frontEnd ∧ (s.seqCue i t b).decoders = s.decoders ∧
      (s.seqCue i t b).words = s.words ∧ (s.seqCue i t b).bus = s.bus ∧ (s.seqCue i t b).peers = s.peers ∧
      (s.seqCue i t b).asks = s.asks ∧ (s.seqCue i t b).view = s.view ∧ (s.seqCue i t b).choice = s.choice ∧
      (s.seqCue i t b).store = s.store ∧ (s.seqCue i t b).session = s.session ∧ (s.seqCue i t b).order = s.order := by
  unfold State.seqCue; (try dsimp only); (repeat' split) <;> simp

@[simp] theorem State.expireStage_frame (s : State) :
    s.expireStage.pending = s.pending ∧ s.expireStage.time = s.time ∧ s.expireStage.pins = s.pins ∧
      s.expireStage.frontEnd = s.frontEnd ∧ s.expireStage.decoders = s.decoders ∧ s.expireStage.words = s.words ∧
      s.expireStage.bus = s.bus ∧ s.expireStage.peers = s.peers ∧ s.expireStage.asks = s.asks ∧
      s.expireStage.view = s.view ∧ s.expireStage.choice = s.choice ∧
      s.expireStage.store = s.store ∧ s.expireStage.session = s.session ∧ s.expireStage.order = s.order := by
  unfold State.expireStage; (repeat' split) <;> simp

/-! ## Decoders and boundaries -/

@[simp] theorem State.decElement_frame (u : Fin 4) (e : Element) (s : State) :
    (s.decElement u e).2.pending = s.pending ∧ (s.decElement u e).2.time = s.time ∧
      (s.decElement u e).2.pins = s.pins ∧ (s.decElement u e).2.frontEnd = s.frontEnd ∧
      (s.decElement u e).2.store = s.store ∧ (s.decElement u e).2.session = s.session ∧
      (s.decElement u e).2.sequencer = s.sequencer ∧ (s.decElement u e).2.mark = s.mark ∧
      (s.decElement u e).2.words = s.words ∧ (s.decElement u e).2.bus = s.bus ∧
      (s.decElement u e).2.peers = s.peers ∧ (s.decElement u e).2.asks = s.asks ∧
      (s.decElement u e).2.view = s.view ∧ (s.decElement u e).2.order = s.order ∧
      (s.decElement u e).2.choice = s.choice := by
  unfold State.decElement; (try dsimp only); (repeat' split) <;> simp

@[simp] theorem State.takeWord_frame (w : Word) (b : StationTime) (s : State) :
    (s.takeWord w b).pending = s.pending ∧ (s.takeWord w b).time = s.time ∧ (s.takeWord w b).pins = s.pins ∧
      (s.takeWord w b).frontEnd = s.frontEnd ∧ (s.takeWord w b).decoders = s.decoders ∧
      (s.takeWord w b).bus = s.bus ∧ (s.takeWord w b).peers = s.peers ∧ (s.takeWord w b).asks = s.asks ∧
      (s.takeWord w b).view = s.view ∧ (s.takeWord w b).choice = s.choice ∧
      (s.takeWord w b).store = s.store ∧ (s.takeWord w b).session = s.session := by
  unfold State.takeWord; (repeat' split) <;> simp

@[simp] theorem Delivery.takeNext_frame (d : Delivery) (u : Fin 4) (ws : List Word) (b : StationTime) (s : State) :
    (d.takeNext s u ws b).2.pending = s.pending ∧ (d.takeNext s u ws b).2.time = s.time ∧
      (d.takeNext s u ws b).2.pins = s.pins ∧ (d.takeNext s u ws b).2.frontEnd = s.frontEnd ∧
      (d.takeNext s u ws b).2.decoders = s.decoders ∧ (d.takeNext s u ws b).2.bus = s.bus ∧
      (d.takeNext s u ws b).2.peers = s.peers ∧ (d.takeNext s u ws b).2.asks = s.asks ∧
      (d.takeNext s u ws b).2.view = s.view ∧ (d.takeNext s u ws b).2.choice = s.choice ∧
      (d.takeNext s u ws b).2.store = s.store ∧ (d.takeNext s u ws b).2.session = s.session := by
  unfold Delivery.takeNext; (repeat' split) <;> simp

/-- Before the store takes an element, the mark unit takes the fire handed to it or nothing happens. -/
theorem State.takeEarlierFire_cases (e : Element) (s : State) :
    s.takeEarlierFire e = s ∨ s.takeEarlierFire e = s.takeHanded := by
  unfold State.takeEarlierFire; (repeat' split) <;> simp

@[simp] theorem State.takeEarlierFire_frame (e : Element) (s : State) :
    (s.takeEarlierFire e).pending = s.pending ∧ (s.takeEarlierFire e).time = s.time ∧
      (s.takeEarlierFire e).pins = s.pins ∧ (s.takeEarlierFire e).frontEnd = s.frontEnd ∧
      (s.takeEarlierFire e).decoders = s.decoders ∧ (s.takeEarlierFire e).words = s.words ∧
      (s.takeEarlierFire e).bus = s.bus ∧ (s.takeEarlierFire e).peers = s.peers ∧
      (s.takeEarlierFire e).asks = s.asks ∧ (s.takeEarlierFire e).view = s.view ∧
      (s.takeEarlierFire e).choice = s.choice := by
  rcases s.takeEarlierFire_cases e with h | h <;> simp [h]

@[simp] theorem Delivery.consume_frame (e : Element) (d : Delivery) (c : Consumer) (s : State) :
    (Delivery.consume e (d, s) c).2.pending = s.pending ∧ (Delivery.consume e (d, s) c).2.time = s.time ∧
      (Delivery.consume e (d, s) c).2.pins = s.pins ∧ (Delivery.consume e (d, s) c).2.peers = s.peers ∧
      (Delivery.consume e (d, s) c).2.choice = s.choice := by
  unfold Delivery.consume; (try dsimp only); (repeat' split) <;> simp

@[simp] theorem State.deliver_frame (l : List Consumer) (e : Element) (s : State) :
    (s.deliver l e).pending = s.pending ∧ (s.deliver l e).time = s.time ∧ (s.deliver l e).pins = s.pins ∧
      (s.deliver l e).peers = s.peers ∧ (s.deliver l e).choice = s.choice := by
  unfold State.deliver
  refine ⟨?_, ?_, ?_, ?_, ?_⟩
  · exact foldl_keeps (fun x : Delivery × State => x.2.pending) _ (fun x c => by cases x; simp) _ _
  · exact foldl_keeps (fun x : Delivery × State => x.2.time) _ (fun x c => by cases x; simp) _ _
  · exact foldl_keeps (fun x : Delivery × State => x.2.pins) _ (fun x c => by cases x; simp) _ _
  · exact foldl_keeps (fun x : Delivery × State => x.2.peers) _ (fun x c => by cases x; simp) _ _
  · exact foldl_keeps (fun x : Delivery × State => x.2.choice) _ (fun x c => by cases x; simp) _ _

@[simp] theorem State.boundary_frame (l : List Consumer) (s : State) :
    (s.boundary l).pending = s.pending ∧ (s.boundary l).time = s.time ∧ (s.boundary l).pins = s.pins ∧
      (s.boundary l).peers = s.peers ∧ (s.boundary l).choice = s.choice := by
  unfold State.boundary; (try dsimp only); simp

/-! ## Ask service -/

@[simp] theorem State.abandonEntry_frame (i : Nat) (s : State) :
    (s.abandonEntry i).pending = s.pending ∧ (s.abandonEntry i).time = s.time ∧ (s.abandonEntry i).pins = s.pins ∧
      (s.abandonEntry i).frontEnd = s.frontEnd ∧ (s.abandonEntry i).store = s.store ∧
      (s.abandonEntry i).session = s.session ∧ (s.abandonEntry i).sequencer = s.sequencer ∧
      (s.abandonEntry i).mark = s.mark ∧ (s.abandonEntry i).decoders = s.decoders ∧
      (s.abandonEntry i).words = s.words ∧ (s.abandonEntry i).peers = s.peers ∧ (s.abandonEntry i).view = s.view ∧
      (s.abandonEntry i).order = s.order ∧ (s.abandonEntry i).choice = s.choice := by
  unfold State.abandonEntry; (try dsimp only); simp

@[simp] theorem State.addRefusal_frame (a : Station) (t : Byte) (b : Bool) (f : TxFrame) (s : State) :
    (s.addRefusal a t b f).pending = s.pending ∧ (s.addRefusal a t b f).time = s.time ∧
      (s.addRefusal a t b f).pins = s.pins ∧ (s.addRefusal a t b f).frontEnd = s.frontEnd ∧
      (s.addRefusal a t b f).store = s.store ∧ (s.addRefusal a t b f).session = s.session ∧
      (s.addRefusal a t b f).sequencer = s.sequencer ∧ (s.addRefusal a t b f).mark = s.mark ∧
      (s.addRefusal a t b f).decoders = s.decoders ∧ (s.addRefusal a t b f).words = s.words ∧
      (s.addRefusal a t b f).bus = s.bus ∧ (s.addRefusal a t b f).peers = s.peers ∧
      (s.addRefusal a t b f).view = s.view ∧ (s.addRefusal a t b f).choice = s.choice := by
  unfold State.addRefusal; (try dsimp only); simp

@[simp] theorem State.refuse_frame (e : AskEntry) (b : Bool) (o : OutcomeCode) (s : State) :
    (s.refuse e b o).pending = s.pending ∧ (s.refuse e b o).time = s.time ∧ (s.refuse e b o).pins = s.pins ∧
      (s.refuse e b o).frontEnd = s.frontEnd ∧ (s.refuse e b o).store = s.store ∧
      (s.refuse e b o).session = s.session ∧ (s.refuse e b o).sequencer = s.sequencer ∧
      (s.refuse e b o).mark = s.mark ∧ (s.refuse e b o).decoders = s.decoders ∧ (s.refuse e b o).words = s.words ∧
      (s.refuse e b o).bus = s.bus ∧ (s.refuse e b o).peers = s.peers ∧ (s.refuse e b o).view = s.view ∧
      (s.refuse e b o).choice = s.choice := by
  unfold State.refuse; simp

@[simp] theorem State.appendEntry_frame (e : AskEntry) (s : State) :
    (s.appendEntry e).pending = s.pending ∧ (s.appendEntry e).time = s.time ∧ (s.appendEntry e).pins = s.pins ∧
      (s.appendEntry e).frontEnd = s.frontEnd ∧ (s.appendEntry e).store = s.store ∧
      (s.appendEntry e).session = s.session ∧ (s.appendEntry e).sequencer = s.sequencer ∧
      (s.appendEntry e).mark = s.mark ∧ (s.appendEntry e).decoders = s.decoders ∧ (s.appendEntry e).words = s.words ∧
      (s.appendEntry e).bus = s.bus ∧ (s.appendEntry e).peers = s.peers ∧ (s.appendEntry e).view = s.view ∧
      (s.appendEntry e).choice = s.choice := by
  unfold State.appendEntry; (try dsimp only); simp

@[simp] theorem State.overwriteEntry_frame (old e : AskEntry) (s : State) :
    (s.overwriteEntry old e).pending = s.pending ∧ (s.overwriteEntry old e).time = s.time ∧
      (s.overwriteEntry old e).pins = s.pins ∧ (s.overwriteEntry old e).frontEnd = s.frontEnd ∧
      (s.overwriteEntry old e).store = s.store ∧ (s.overwriteEntry old e).session = s.session ∧
      (s.overwriteEntry old e).sequencer = s.sequencer ∧ (s.overwriteEntry old e).mark = s.mark ∧
      (s.overwriteEntry old e).decoders = s.decoders ∧ (s.overwriteEntry old e).words = s.words ∧
      (s.overwriteEntry old e).bus = s.bus ∧ (s.overwriteEntry old e).peers = s.peers ∧
      (s.overwriteEntry old e).view = s.view ∧ (s.overwriteEntry old e).choice = s.choice := by
  unfold State.overwriteEntry; (try dsimp only); simp

@[simp] theorem State.takeAsk_frame (w : Bool) (f : RxFrame) (s : State) :
    (State.takeAsk w f s).pending = s.pending ∧ (State.takeAsk w f s).time = s.time ∧
      (State.takeAsk w f s).pins = s.pins ∧ (State.takeAsk w f s).frontEnd = s.frontEnd ∧
      (State.takeAsk w f s).store = s.store ∧ (State.takeAsk w f s).session = s.session ∧
      (State.takeAsk w f s).sequencer = s.sequencer ∧ (State.takeAsk w f s).mark = s.mark ∧
      (State.takeAsk w f s).decoders = s.decoders ∧ (State.takeAsk w f s).words = s.words ∧
      (State.takeAsk w f s).peers = s.peers ∧ (State.takeAsk w f s).view = s.view ∧
      (State.takeAsk w f s).choice = s.choice := by
  unfold State.takeAsk; (try dsimp only); (repeat' split) <;> simp

@[simp] theorem State.takeStatusAsk_frame (f : RxFrame) (s : State) :
    (State.takeStatusAsk f s).pending = s.pending ∧ (State.takeStatusAsk f s).time = s.time ∧
      (State.takeStatusAsk f s).pins = s.pins ∧ (State.takeStatusAsk f s).frontEnd = s.frontEnd ∧
      (State.takeStatusAsk f s).store = s.store ∧ (State.takeStatusAsk f s).session = s.session ∧
      (State.takeStatusAsk f s).sequencer = s.sequencer ∧ (State.takeStatusAsk f s).mark = s.mark ∧
      (State.takeStatusAsk f s).decoders = s.decoders ∧ (State.takeStatusAsk f s).words = s.words ∧
      (State.takeStatusAsk f s).bus = s.bus ∧ (State.takeStatusAsk f s).peers = s.peers ∧
      (State.takeStatusAsk f s).view = s.view ∧ (State.takeStatusAsk f s).choice = s.choice := by
  unfold State.takeStatusAsk; (try dsimp only); (repeat' split) <;> simp

@[simp] theorem State.takeStop_frame (f : RxFrame) (s : State) :
    (State.takeStop f s).pending = s.pending ∧ (State.takeStop f s).time = s.time ∧
      (State.takeStop f s).pins = s.pins ∧ (State.takeStop f s).frontEnd = s.frontEnd ∧
      (State.takeStop f s).store = s.store ∧ (State.takeStop f s).session = s.session ∧
      (State.takeStop f s).sequencer = s.sequencer ∧ (State.takeStop f s).mark = s.mark ∧
      (State.takeStop f s).decoders = s.decoders ∧ (State.takeStop f s).words = s.words ∧
      (State.takeStop f s).peers = s.peers ∧ (State.takeStop f s).choice = s.choice := by
  unfold State.takeStop; (try dsimp only); (repeat' split) <;> simp

@[simp] theorem State.removeEntry_frame (i : Nat) (s : State) :
    (s.removeEntry i).pending = s.pending ∧ (s.removeEntry i).time = s.time ∧ (s.removeEntry i).pins = s.pins ∧
      (s.removeEntry i).frontEnd = s.frontEnd ∧ (s.removeEntry i).store = s.store ∧
      (s.removeEntry i).session = s.session ∧ (s.removeEntry i).sequencer = s.sequencer ∧
      (s.removeEntry i).mark = s.mark ∧ (s.removeEntry i).decoders = s.decoders ∧ (s.removeEntry i).words = s.words ∧
      (s.removeEntry i).bus = s.bus ∧ (s.removeEntry i).peers = s.peers ∧ (s.removeEntry i).view = s.view ∧
      (s.removeEntry i).order = s.order ∧ (s.removeEntry i).choice = s.choice := by
  unfold State.removeEntry; (try dsimp only); simp

@[simp] theorem State.handOwn_frame (e : AskEntry) (l : List Part) (s : State) :
    (s.handOwn e l).pending = s.pending ∧ (s.handOwn e l).time = s.time ∧ (s.handOwn e l).pins = s.pins ∧
      (s.handOwn e l).frontEnd = s.frontEnd ∧ (s.handOwn e l).store = s.store ∧ (s.handOwn e l).session = s.session ∧
      (s.handOwn e l).sequencer = s.sequencer ∧ (s.handOwn e l).mark = s.mark ∧
      (s.handOwn e l).decoders = s.decoders ∧ (s.handOwn e l).words = s.words ∧ (s.handOwn e l).bus = s.bus ∧
      (s.handOwn e l).peers = s.peers ∧ (s.handOwn e l).choice = s.choice := by
  unfold State.handOwn
  simp [foldl_keeps State.pending, foldl_keeps State.time, foldl_keeps State.pins, foldl_keeps State.frontEnd, foldl_keeps State.store, foldl_keeps State.session, foldl_keeps State.sequencer, foldl_keeps State.mark, foldl_keeps State.decoders, foldl_keeps State.words, foldl_keeps State.bus, foldl_keeps State.peers, foldl_keeps State.choice]

@[simp] theorem State.serve_frame (e : AskEntry) (l : List Part) (s : State) :
    (s.serve e l).pending = s.pending ∧ (s.serve e l).time = s.time ∧ (s.serve e l).pins = s.pins ∧
      (s.serve e l).frontEnd = s.frontEnd ∧ (s.serve e l).store = s.store ∧ (s.serve e l).session = s.session ∧
      (s.serve e l).sequencer = s.sequencer ∧ (s.serve e l).mark = s.mark ∧ (s.serve e l).decoders = s.decoders ∧
      (s.serve e l).words = s.words ∧ (s.serve e l).bus = s.bus ∧ (s.serve e l).peers = s.peers ∧
      (s.serve e l).view = s.view ∧ (s.serve e l).choice = s.choice := by
  unfold State.serve; (try dsimp only); simp

@[simp] theorem State.startService_frame (e : AskEntry) (s : State) :
    (s.startService e).pending = s.pending ∧ (s.startService e).time = s.time ∧ (s.startService e).pins = s.pins ∧
      (s.startService e).frontEnd = s.frontEnd ∧ (s.startService e).store = s.store ∧
      (s.startService e).session = s.session ∧ (s.startService e).sequencer = s.sequencer ∧
      (s.startService e).mark = s.mark ∧ (s.startService e).decoders = s.decoders ∧
      (s.startService e).words = s.words ∧ (s.startService e).bus = s.bus ∧ (s.startService e).peers = s.peers ∧
      (s.startService e).choice = s.choice := by
  unfold State.startService; (repeat' split) <;> simp

@[simp] theorem State.partSent_frame (i : Nat) (s : State) :
    (s.partSent i).pending = s.pending ∧ (s.partSent i).time = s.time ∧ (s.partSent i).pins = s.pins ∧
      (s.partSent i).frontEnd = s.frontEnd ∧ (s.partSent i).store = s.store ∧ (s.partSent i).session = s.session ∧
      (s.partSent i).sequencer = s.sequencer ∧ (s.partSent i).mark = s.mark ∧ (s.partSent i).decoders = s.decoders ∧
      (s.partSent i).words = s.words ∧ (s.partSent i).bus = s.bus ∧ (s.partSent i).peers = s.peers ∧
      (s.partSent i).view = s.view ∧ (s.partSent i).order = s.order ∧ (s.partSent i).choice = s.choice := by
  unfold State.partSent; (try dsimp only); simp

@[simp] theorem State.partLost_frame (i : Nat) (s : State) :
    (s.partLost i).pending = s.pending ∧ (s.partLost i).time = s.time ∧ (s.partLost i).pins = s.pins ∧
      (s.partLost i).frontEnd = s.frontEnd ∧ (s.partLost i).store = s.store ∧ (s.partLost i).session = s.session ∧
      (s.partLost i).sequencer = s.sequencer ∧ (s.partLost i).mark = s.mark ∧ (s.partLost i).decoders = s.decoders ∧
      (s.partLost i).words = s.words ∧ (s.partLost i).peers = s.peers ∧ (s.partLost i).choice = s.choice := by
  unfold State.partLost; (repeat' split) <;> simp

@[simp] theorem State.endGone_frame (e : AskEntry) (s : State) :
    (s.endGone e).pending = s.pending ∧ (s.endGone e).time = s.time ∧ (s.endGone e).pins = s.pins ∧
      (s.endGone e).frontEnd = s.frontEnd ∧ (s.endGone e).store = s.store ∧ (s.endGone e).session = s.session ∧
      (s.endGone e).sequencer = s.sequencer ∧ (s.endGone e).mark = s.mark ∧ (s.endGone e).decoders = s.decoders ∧
      (s.endGone e).words = s.words ∧ (s.endGone e).bus = s.bus ∧ (s.endGone e).peers = s.peers ∧
      (s.endGone e).choice = s.choice := by
  unfold State.endGone; (try dsimp only); (repeat' split) <;> simp

@[simp] theorem State.asksGone_frame (s : State) :
    s.asksGone.pending = s.pending ∧ s.asksGone.time = s.time ∧ s.asksGone.pins = s.pins ∧
      s.asksGone.frontEnd = s.frontEnd ∧ s.asksGone.store = s.store ∧ s.asksGone.session = s.session ∧
      s.asksGone.sequencer = s.sequencer ∧ s.asksGone.mark = s.mark ∧ s.asksGone.decoders = s.decoders ∧
      s.asksGone.words = s.words ∧ s.asksGone.peers = s.peers ∧ s.asksGone.choice = s.choice := by
  unfold State.asksGone; (try dsimp only)
  simp [foldl_keeps State.pending, foldl_keeps State.time, foldl_keeps State.pins, foldl_keeps State.frontEnd, foldl_keeps State.store, foldl_keeps State.session, foldl_keeps State.sequencer, foldl_keeps State.mark, foldl_keeps State.decoders, foldl_keeps State.words, foldl_keeps State.peers, foldl_keeps State.choice]

@[simp] theorem State.askerAbsent_frame (p : Station) (s : State) :
    (s.askerAbsent p).pending = s.pending ∧ (s.askerAbsent p).time = s.time ∧ (s.askerAbsent p).pins = s.pins ∧
      (s.askerAbsent p).frontEnd = s.frontEnd ∧ (s.askerAbsent p).store = s.store ∧
      (s.askerAbsent p).session = s.session ∧ (s.askerAbsent p).sequencer = s.sequencer ∧
      (s.askerAbsent p).mark = s.mark ∧ (s.askerAbsent p).decoders = s.decoders ∧ (s.askerAbsent p).words = s.words ∧
      (s.askerAbsent p).peers = s.peers ∧ (s.askerAbsent p).choice = s.choice := by
  unfold State.askerAbsent; (try dsimp only); simp

@[simp] theorem State.clearSticky_frame (s : State) :
    s.clearSticky.pending = s.pending ∧ s.clearSticky.time = s.time ∧ s.clearSticky.pins = s.pins ∧
      s.clearSticky.frontEnd = s.frontEnd ∧ s.clearSticky.session = s.session ∧
      s.clearSticky.sequencer = s.sequencer ∧ s.clearSticky.bus = s.bus ∧ s.clearSticky.asks = s.asks ∧
      s.clearSticky.view = s.view ∧ s.clearSticky.order = s.order ∧ s.clearSticky.choice = s.choice := by
  unfold State.clearSticky; (try dsimp only); simp

@[simp] theorem State.compose_frame (r : StatusReply) (s : State) :
    (s.compose r).2.pending = s.pending ∧ (s.compose r).2.time = s.time ∧ (s.compose r).2.pins = s.pins ∧
      (s.compose r).2.session = s.session ∧ (s.compose r).2.sequencer = s.sequencer ∧ (s.compose r).2.bus = s.bus ∧
      (s.compose r).2.asks = s.asks ∧ (s.compose r).2.view = s.view ∧ (s.compose r).2.order = s.order ∧
      (s.compose r).2.choice = s.choice := by
  unfold State.compose; (try dsimp only); (repeat' split) <;> simp

/-! ## Session control -/

@[simp] theorem State.takePlanPart_frame (f : RxFrame) (s : State) :
    (State.takePlanPart f s).pending = s.pending ∧ (State.takePlanPart f s).time = s.time ∧
      (State.takePlanPart f s).pins = s.pins ∧ (State.takePlanPart f s).store = s.store ∧
      (State.takePlanPart f s).sequencer = s.sequencer ∧ (State.takePlanPart f s).mark = s.mark ∧
      (State.takePlanPart f s).decoders = s.decoders ∧ (State.takePlanPart f s).words = s.words ∧
      (State.takePlanPart f s).bus = s.bus ∧ (State.takePlanPart f s).peers = s.peers ∧
      (State.takePlanPart f s).asks = s.asks ∧ (State.takePlanPart f s).view = s.view ∧
      (State.takePlanPart f s).order = s.order ∧ (State.takePlanPart f s).choice = s.choice := by
  unfold State.takePlanPart; (try dsimp only); (repeat' split) <;> simp

@[simp] theorem State.acceptArm_frame (s : State) :
    s.acceptArm.pending = s.pending ∧ s.acceptArm.time = s.time ∧ s.acceptArm.pins = s.pins ∧
      s.acceptArm.peers = s.peers ∧ s.acceptArm.choice = s.choice := by
  unfold State.acceptArm; (try dsimp only); simp

@[simp] theorem State.arm_frame (s : State) :
    s.arm.pending = s.pending ∧ s.arm.time = s.time ∧ s.arm.pins = s.pins ∧ s.arm.peers = s.peers ∧
      s.arm.choice = s.choice := by
  unfold State.arm; (repeat' split) <;> simp

@[simp] theorem State.takeArm_frame (f : RxFrame) (s : State) :
    (State.takeArm f s).pending = s.pending ∧ (State.takeArm f s).time = s.time ∧ (State.takeArm f s).pins = s.pins ∧
      (State.takeArm f s).peers = s.peers ∧ (State.takeArm f s).choice = s.choice := by
  unfold State.takeArm; (repeat' split) <;> simp

@[simp] theorem State.takeHalt_frame (f : RxFrame) (s : State) :
    (State.takeHalt f s).pending = s.pending ∧ (State.takeHalt f s).time = s.time ∧
      (State.takeHalt f s).pins = s.pins ∧ (State.takeHalt f s).words = s.words ∧
      (State.takeHalt f s).peers = s.peers ∧ (State.takeHalt f s).choice = s.choice := by
  unfold State.takeHalt; (repeat' split) <;> simp

/-! ## Results, link and peers -/

@[simp] theorem State.reportSent_frame (e : QEntry) (t : StationTime) (s : State) :
    (s.reportSent e t).pending = s.pending ∧ (s.reportSent e t).time = s.time ∧ (s.reportSent e t).pins = s.pins ∧
      (s.reportSent e t).frontEnd = s.frontEnd ∧ (s.reportSent e t).store = s.store ∧
      (s.reportSent e t).session = s.session ∧ (s.reportSent e t).sequencer = s.sequencer ∧
      (s.reportSent e t).mark = s.mark ∧ (s.reportSent e t).decoders = s.decoders ∧
      (s.reportSent e t).words = s.words ∧ (s.reportSent e t).bus = s.bus ∧ (s.reportSent e t).order = s.order ∧
      (s.reportSent e t).choice = s.choice := by
  unfold State.reportSent; (try dsimp only); (repeat' split) <;> simp

@[simp] theorem State.reportLost_frame (e : QEntry) (s : State) :
    (s.reportLost e).pending = s.pending ∧ (s.reportLost e).time = s.time ∧ (s.reportLost e).pins = s.pins ∧
      (s.reportLost e).frontEnd = s.frontEnd ∧ (s.reportLost e).store = s.store ∧
      (s.reportLost e).session = s.session ∧ (s.reportLost e).sequencer = s.sequencer ∧
      (s.reportLost e).mark = s.mark ∧ (s.reportLost e).decoders = s.decoders ∧ (s.reportLost e).words = s.words ∧
      (s.reportLost e).peers = s.peers ∧ (s.reportLost e).choice = s.choice := by
  unfold State.reportLost; (repeat' split) <;> simp

@[simp] theorem State.placeWaitingNote_frame (s : State) :
    s.placeWaitingNote.pending = s.pending ∧ s.placeWaitingNote.time = s.time ∧ s.placeWaitingNote.pins = s.pins ∧
      s.placeWaitingNote.frontEnd = s.frontEnd ∧ s.placeWaitingNote.store = s.store ∧
      s.placeWaitingNote.sequencer = s.sequencer ∧ s.placeWaitingNote.mark = s.mark ∧
      s.placeWaitingNote.decoders = s.decoders ∧ s.placeWaitingNote.choice = s.choice := by
  unfold State.placeWaitingNote; (try dsimp only); (repeat' split) <;> simp

@[simp] theorem State.enterSilent_frame (l : LinkState) (s : State) :
    (s.enterSilent l).pending = s.pending ∧ (s.enterSilent l).time = s.time ∧ (s.enterSilent l).pins = s.pins ∧
      (s.enterSilent l).frontEnd = s.frontEnd ∧ (s.enterSilent l).store = s.store ∧
      (s.enterSilent l).session = s.session ∧ (s.enterSilent l).sequencer = s.sequencer ∧
      (s.enterSilent l).mark = s.mark ∧ (s.enterSilent l).decoders = s.decoders ∧ (s.enterSilent l).words = s.words ∧
      (s.enterSilent l).choice = s.choice := by
  unfold State.enterSilent; (try dsimp only); repeat' split
  all_goals simp [foldl_keeps State.pending, foldl_keeps State.time, foldl_keeps State.pins, foldl_keeps State.frontEnd, foldl_keeps State.store, foldl_keeps State.session, foldl_keeps State.sequencer, foldl_keeps State.mark, foldl_keeps State.decoders, foldl_keeps State.words, foldl_keeps State.choice]

@[simp] theorem State.rejoinBus_frame (s : State) :
    s.rejoinBus.pending = s.pending ∧ s.rejoinBus.time = s.time ∧ s.rejoinBus.pins = s.pins ∧
      s.rejoinBus.frontEnd = s.frontEnd ∧ s.rejoinBus.store = s.store ∧ s.rejoinBus.session = s.session ∧
      s.rejoinBus.sequencer = s.sequencer ∧ s.rejoinBus.mark = s.mark ∧ s.rejoinBus.decoders = s.decoders ∧
      s.rejoinBus.words = s.words ∧ s.rejoinBus.asks = s.asks ∧ s.rejoinBus.view = s.view ∧
      s.rejoinBus.choice = s.choice := by
  unfold State.rejoinBus; (try dsimp only); simp

@[simp] theorem State.setScore_frame (n : Nat) (s : State) :
    (s.setScore n).pending = s.pending ∧ (s.setScore n).time = s.time ∧ (s.setScore n).pins = s.pins ∧
      (s.setScore n).frontEnd = s.frontEnd ∧ (s.setScore n).store = s.store ∧ (s.setScore n).session = s.session ∧
      (s.setScore n).sequencer = s.sequencer ∧ (s.setScore n).mark = s.mark ∧ (s.setScore n).decoders = s.decoders ∧
      (s.setScore n).words = s.words ∧ (s.setScore n).choice = s.choice := by
  unfold State.setScore; (try dsimp only); (repeat' split) <;> simp

@[simp] theorem State.takeRxError_frame (s : State) :
    s.takeRxError.pending = s.pending ∧ s.takeRxError.time = s.time ∧ s.takeRxError.pins = s.pins ∧
      s.takeRxError.frontEnd = s.frontEnd ∧ s.takeRxError.store = s.store ∧ s.takeRxError.session = s.session ∧
      s.takeRxError.sequencer = s.sequencer ∧ s.takeRxError.mark = s.mark ∧ s.takeRxError.decoders = s.decoders ∧
      s.takeRxError.words = s.words ∧ s.takeRxError.choice = s.choice := by
  unfold State.takeRxError; (try dsimp only); (repeat' split) <;> simp

@[simp] theorem State.takeBreak_frame (s : State) :
    s.takeBreak.pending = s.pending ∧ s.takeBreak.time = s.time ∧ s.takeBreak.pins = s.pins ∧
      s.takeBreak.choice = s.choice := by
  unfold State.takeBreak; (try dsimp only); (repeat' split) <;> simp

@[simp] theorem State.takeTimeNote_frame (f : RxFrame) (s : State) :
    (State.takeTimeNote f s).pending = s.pending ∧ (State.takeTimeNote f s).time = s.time ∧
      (State.takeTimeNote f s).pins = s.pins ∧ (State.takeTimeNote f s).frontEnd = s.frontEnd ∧
      (State.takeTimeNote f s).store = s.store ∧ (State.takeTimeNote f s).session = s.session ∧
      (State.takeTimeNote f s).sequencer = s.sequencer ∧ (State.takeTimeNote f s).mark = s.mark ∧
      (State.takeTimeNote f s).decoders = s.decoders ∧ (State.takeTimeNote f s).words = s.words ∧
      (State.takeTimeNote f s).bus = s.bus ∧ (State.takeTimeNote f s).asks = s.asks ∧
      (State.takeTimeNote f s).view = s.view ∧ (State.takeTimeNote f s).order = s.order ∧
      (State.takeTimeNote f s).choice = s.choice := by
  unfold State.takeTimeNote; (try dsimp only); (repeat' split) <;> simp

@[simp] theorem State.duplicateFound_frame (s : State) :
    s.duplicateFound.pending = s.pending ∧ s.duplicateFound.time = s.time ∧ s.duplicateFound.pins = s.pins ∧
      s.duplicateFound.frontEnd = s.frontEnd ∧ s.duplicateFound.store = s.store ∧
      s.duplicateFound.session = s.session ∧ s.duplicateFound.sequencer = s.sequencer ∧
      s.duplicateFound.mark = s.mark ∧ s.duplicateFound.decoders = s.decoders ∧ s.duplicateFound.words = s.words ∧
      s.duplicateFound.choice = s.choice := by
  unfold State.duplicateFound; (repeat' split) <;> simp

@[simp] theorem State.takeRollCall_frame (w : Bool) (f : RxFrame) (s : State) :
    (State.takeRollCall w f s).pending = s.pending ∧ (State.takeRollCall w f s).time = s.time ∧
      (State.takeRollCall w f s).pins = s.pins ∧ (State.takeRollCall w f s).frontEnd = s.frontEnd ∧
      (State.takeRollCall w f s).store = s.store ∧ (State.takeRollCall w f s).session = s.session ∧
      (State.takeRollCall w f s).sequencer = s.sequencer ∧ (State.takeRollCall w f s).mark = s.mark ∧
      (State.takeRollCall w f s).decoders = s.decoders ∧ (State.takeRollCall w f s).words = s.words ∧
      (State.takeRollCall w f s).choice = s.choice := by
  unfold State.takeRollCall; (try dsimp only); (repeat' split) <;> simp

@[simp] theorem State.takeMarkNote_frame (f : RxFrame) (s : State) :
    (State.takeMarkNote f s).pending = s.pending ∧ (State.takeMarkNote f s).time = s.time ∧
      (State.takeMarkNote f s).pins = s.pins ∧ (State.takeMarkNote f s).frontEnd = s.frontEnd ∧
      (State.takeMarkNote f s).session = s.session ∧ (State.takeMarkNote f s).sequencer = s.sequencer ∧
      (State.takeMarkNote f s).mark = s.mark ∧ (State.takeMarkNote f s).decoders = s.decoders ∧
      (State.takeMarkNote f s).words = s.words ∧ (State.takeMarkNote f s).bus = s.bus ∧
      (State.takeMarkNote f s).asks = s.asks ∧ (State.takeMarkNote f s).view = s.view ∧
      (State.takeMarkNote f s).order = s.order ∧ (State.takeMarkNote f s).choice = s.choice := by
  unfold State.takeMarkNote; (try dsimp only); (repeat' split) <;> simp

/-! ## Placing -/

@[simp] theorem State.enqueueHeld_frame (h : Held) (s : State) :
    (s.enqueueHeld h).pending = s.pending ∧ (s.enqueueHeld h).time = s.time ∧ (s.enqueueHeld h).pins = s.pins ∧
      (s.enqueueHeld h).frontEnd = s.frontEnd ∧ (s.enqueueHeld h).store = s.store ∧
      (s.enqueueHeld h).session = s.session ∧ (s.enqueueHeld h).sequencer = s.sequencer ∧
      (s.enqueueHeld h).mark = s.mark ∧ (s.enqueueHeld h).decoders = s.decoders ∧ (s.enqueueHeld h).words = s.words ∧
      (s.enqueueHeld h).peers = s.peers ∧ (s.enqueueHeld h).asks = s.asks ∧ (s.enqueueHeld h).view = s.view ∧
      (s.enqueueHeld h).choice = s.choice := by
  unfold State.enqueueHeld; simp

@[simp] theorem State.placePart_frame (e : AskEntry) (p : Part) (s : State) :
    (s.placePart e p).pending = s.pending ∧ (s.placePart e p).time = s.time ∧ (s.placePart e p).pins = s.pins ∧
      (s.placePart e p).frontEnd = s.frontEnd ∧ (s.placePart e p).store = s.store ∧
      (s.placePart e p).session = s.session ∧ (s.placePart e p).sequencer = s.sequencer ∧
      (s.placePart e p).mark = s.mark ∧ (s.placePart e p).decoders = s.decoders ∧ (s.placePart e p).words = s.words ∧
      (s.placePart e p).peers = s.peers ∧ (s.placePart e p).choice = s.choice := by
  unfold State.placePart; (try dsimp only); (repeat' split) <;> simp

@[simp] theorem State.placeStatus_frame (r : StatusReply) (s : State) :
    (s.placeStatus r).pending = s.pending ∧ (s.placeStatus r).time = s.time ∧ (s.placeStatus r).pins = s.pins ∧
      (s.placeStatus r).session = s.session ∧ (s.placeStatus r).sequencer = s.sequencer ∧
      (s.placeStatus r).view = s.view ∧ (s.placeStatus r).choice = s.choice := by
  unfold State.placeStatus
  cases r.composed <;> dsimp only <;> split <;> simp

@[simp] theorem State.place_frame (p : Pick) (s : State) :
    (s.place p).pending = s.pending ∧ (s.place p).time = s.time ∧ (s.place p).pins = s.pins ∧
      (s.place p).sequencer = s.sequencer ∧ (s.place p).choice = s.choice := by
  unfold State.place; (try dsimp only); (repeat' split) <;> simp

end Sys2Proof.Machine
end

