-- ==== Sys2Proof/Laws/Fields.lean ====
section
/-! SUPPORT. For the operations that change the capture store or the bus controller, the fields of those two blocks that
they leave as they are. -/

namespace Sys2Proof.Machine

/-! ## The capture store -/

@[simp] theorem Store.stage_fields (st : Store) (k : Fin 8) (r : Rec) :
    (st.stage k r).mem = st.mem ∧ (st.stage k r).headers = st.headers ∧
      (st.stage k r).fifo = st.fifo ++ [{ seg := k, rcd := r }] ∧ (st.stage k r).writeWait = st.writeWait ∧
      (st.stage k r).layout = st.layout ∧ (st.stage k r).reference = st.reference ∧
      (st.stage k r).current = st.current ∧ (st.stage k r).mergedSeen = st.mergedSeen := by
  simp [Store.stage]

@[simp] theorem Store.offerRec_fields (st : Store) (k : Fin 8) (b : StationTime) (r : Rec) :
    (st.offerRec k b r).mem = st.mem ∧ (st.offerRec k b r).writeWait = st.writeWait ∧
      (st.offerRec k b r).layout = st.layout ∧ (st.offerRec k b r).current = st.current := by
  unfold Store.offerRec; split <;> simp [Store.merge]

@[simp] theorem Store.write_fields (st : Store) (p : Nat) (r : Rec) :
    (st.write p r).headers = st.headers ∧ (st.write p r).fifo = st.fifo ∧ (st.write p r).writeWait = st.writeWait ∧
      (st.write p r).layout = st.layout ∧ (st.write p r).reference = st.reference ∧
      (st.write p r).current = st.current ∧ (st.write p r).mergedSeen = st.mergedSeen := by
  unfold Store.write; split <;> simp

@[simp] theorem Store.arm_fields (st : Store) (p : Plan) :
    (st.arm p).mem = [] ∧ (st.arm p).headers = Vector.replicate 8 SegHeader.empty ∧ (st.arm p).fifo = [] ∧
      (st.arm p).writeWait = st.writeWait ∧ (st.arm p).layout = some p.layout ∧ (st.arm p).reference = none ∧
      (st.arm p).current = none ∧ (st.arm p).mergedSeen = st.mergedSeen := by
  simp [Store.arm, Store.reset]

@[simp] theorem State.setHeader_store (k : Fin 8) (h : SegHeader) (s : State) :
    (s.setHeader k h).store.mem = s.store.mem ∧ (s.setHeader k h).store.fifo = s.store.fifo ∧
      (s.setHeader k h).store.writeWait = s.store.writeWait ∧ (s.setHeader k h).store.layout = s.store.layout ∧
      (s.setHeader k h).store.reference = s.store.reference ∧ (s.setHeader k h).store.current = s.store.current ∧
      (s.setHeader k h).store.mergedSeen = s.store.mergedSeen := by
  unfold State.setHeader; (try dsimp only); simp

@[simp] theorem State.triggerRecord_store (l : Layout) (k : Fin 8) (b : StationTime) (s : State) :
    (s.triggerRecord l k b).store.mem = s.store.mem ∧ (s.triggerRecord l k b).store.headers = s.store.headers ∧
      (s.triggerRecord l k b).store.writeWait = s.store.writeWait ∧
      (s.triggerRecord l k b).store.layout = s.store.layout ∧
      (s.triggerRecord l k b).store.current = s.store.current ∧
      (s.triggerRecord l k b).store.mergedSeen = s.store.mergedSeen := by
  unfold State.triggerRecord; (try dsimp only); (repeat' split) <;> simp

@[simp] theorem State.trigger_store (l : Layout) (c : Current) (o : Offer) (late : Bool) (s : State) :
    (s.trigger l c o late).store.mem = s.store.mem ∧ (s.trigger l c o late).store.writeWait = s.store.writeWait ∧
      (s.trigger l c o late).store.layout = s.store.layout ∧ (s.trigger l c o late).store.current = s.store.current ∧
      (s.trigger l c o late).store.mergedSeen = s.store.mergedSeen := by
  unfold State.trigger; (try dsimp only); (repeat' split) <;> simp

@[simp] theorem State.takeOffer_store (o : Offer) (late : Bool) (s : State) :
    (s.takeOffer o late).store.mem = s.store.mem ∧ (s.takeOffer o late).store.writeWait = s.store.writeWait ∧
      (s.takeOffer o late).store.layout = s.store.layout ∧ (s.takeOffer o late).store.current = s.store.current ∧
      (s.takeOffer o late).store.mergedSeen = s.store.mergedSeen := by
  unfold State.takeOffer; (try dsimp only); (repeat' split) <;> simp

@[simp] theorem State.offer_store (o : Offer) (late : Bool) (s : State) :
    (s.offer o late).store.mem = s.store.mem ∧ (s.offer o late).store.writeWait = s.store.writeWait ∧
      (s.offer o late).store.layout = s.store.layout ∧ (s.offer o late).store.current = s.store.current ∧
      (s.offer o late).store.mergedSeen = s.store.mergedSeen := by
  unfold State.offer; (repeat' split) <;> simp

@[simp] theorem State.takeOffers_store (s : State) :
    s.takeOffers.store.mem = s.store.mem ∧ s.takeOffers.store.writeWait = s.store.writeWait ∧
      s.takeOffers.store.layout = s.store.layout ∧ s.takeOffers.store.current = s.store.current ∧
      s.takeOffers.store.mergedSeen = s.store.mergedSeen := by
  unfold State.takeOffers; split
  · simp
  · refine ⟨?_, ?_, ?_, ?_, ?_⟩
    · exact foldl_keeps (fun s : State => s.store.mem) _ (fun s h => by simp) _ _
    · exact foldl_keeps (fun s : State => s.store.writeWait) _ (fun s h => by simp) _ _
    · exact foldl_keeps (fun s : State => s.store.layout) _ (fun s h => by simp) _ _
    · exact foldl_keeps (fun s : State => s.store.current) _ (fun s h => by simp) _ _
    · exact foldl_keeps (fun s : State => s.store.mergedSeen) _ (fun s h => by simp) _ _

@[simp] theorem State.startSegment_store (l : Layout) (k : Fin 8) (b : StationTime) (s : State) :
    (s.startSegment l k b).store.mem = s.store.mem ∧ (s.startSegment l k b).store.fifo = s.store.fifo ∧
      (s.startSegment l k b).store.writeWait = s.store.writeWait ∧
      (s.startSegment l k b).store.layout = s.store.layout ∧
      (s.startSegment l k b).store.reference = s.store.reference ∧
      (s.startSegment l k b).store.mergedSeen = s.store.mergedSeen := by
  unfold State.startSegment; (try dsimp only); simp

@[simp] theorem State.takeStart_store (l : Layout) (c : Current) (e : Element) (s : State) :
    (s.takeStart l c e).store.mem = s.store.mem ∧ (s.takeStart l c e).store.headers = s.store.headers ∧
      (s.takeStart l c e).store.writeWait = s.store.writeWait ∧ (s.takeStart l c e).store.layout = s.store.layout ∧
      (s.takeStart l c e).store.mergedSeen = s.store.mergedSeen := by
  unfold State.takeStart; (try dsimp only); (repeat' split) <;> simp

@[simp] theorem State.finishSegment_store (k : Fin 8) (r : Bool) (s : State) :
    (s.finishSegment k r).store.mem = s.store.mem ∧ (s.finishSegment k r).store.fifo = s.store.fifo ∧
      (s.finishSegment k r).store.writeWait = s.store.writeWait ∧
      (s.finishSegment k r).store.layout = s.store.layout ∧
      (s.finishSegment k r).store.reference = s.store.reference ∧
      (s.finishSegment k r).store.current = s.store.current ∧
      (s.finishSegment k r).store.mergedSeen = s.store.mergedSeen := by
  unfold State.finishSegment; (try dsimp only); (repeat' split) <;> simp

@[simp] theorem State.endSegment_store (c : Current) (t : StationTime) (st : SegState) (s : State) :
    (s.endSegment c t st).store.mem = s.store.mem ∧ (s.endSegment c t st).store.fifo = s.store.fifo ∧
      (s.endSegment c t st).store.writeWait = s.store.writeWait ∧
      (s.endSegment c t st).store.layout = s.store.layout ∧
      (s.endSegment c t st).store.reference = s.store.reference ∧
      (s.endSegment c t st).store.mergedSeen = s.store.mergedSeen := by
  unfold State.endSegment; (try dsimp only); simp

@[simp] theorem State.afterClose_store (l : Layout) (k : Fin 8) (e : Element) (s : State) :
    (s.afterClose l k e).store.mem = s.store.mem ∧ (s.afterClose l k e).store.writeWait = s.store.writeWait ∧
      (s.afterClose l k e).store.layout = s.store.layout ∧
      (s.afterClose l k e).store.mergedSeen = s.store.mergedSeen := by
  unfold State.afterClose; (try dsimp only); (repeat' split) <;> simp

@[simp] theorem State.closeSegment_store (l : Layout) (c : Current) (e : Element) (s : State) :
    (s.closeSegment l c e).store.mem = s.store.mem ∧ (s.closeSegment l c e).store.writeWait = s.store.writeWait ∧
      (s.closeSegment l c e).store.layout = s.store.layout ∧
      (s.closeSegment l c e).store.mergedSeen = s.store.mergedSeen := by
  unfold State.closeSegment; (try dsimp only); simp

@[simp] theorem State.takeFirst_store (l : Layout) (c : Current) (e : Element) (s : State) :
    (s.takeFirst l c e).store.mem = s.store.mem ∧ (s.takeFirst l c e).store.writeWait = s.store.writeWait ∧
      (s.takeFirst l c e).store.layout = s.store.layout := by
  unfold State.takeFirst; (try dsimp only); (repeat' split) <;> simp

@[simp] theorem State.takeElement_store (l : Layout) (c : Current) (f : Reference) (e : Element) (s : State) :
    (s.takeElement l c f e).store.mem = s.store.mem ∧ (s.takeElement l c f e).store.writeWait = s.store.writeWait ∧
      (s.takeElement l c f e).store.layout = s.store.layout := by
  unfold State.takeElement; (try dsimp only); (repeat' split) <;> simp

@[simp] theorem State.takeBoundary_store (e : Element) (s : State) :
    (s.takeBoundary e).store.mem = s.store.mem ∧ (s.takeBoundary e).store.writeWait = s.store.writeWait ∧
      (s.takeBoundary e).store.layout = s.store.layout := by
  unfold State.takeBoundary; (repeat' split) <;> simp

@[simp] theorem State.storeElement_store (e : Element) (s : State) :
    (s.storeElement e).store.mem = s.store.mem ∧ (s.storeElement e).store.writeWait = s.store.writeWait ∧
      (s.storeElement e).store.layout = s.store.layout := by
  unfold State.storeElement; simp

@[simp] theorem State.cut_store (r : Bool) (s : State) :
    (s.cut r).store.mem = s.store.mem ∧ (s.cut r).store.fifo = s.store.fifo ∧
      (s.cut r).store.writeWait = s.store.writeWait ∧ (s.cut r).store.layout = s.store.layout ∧
      (s.cut r).store.reference = s.store.reference ∧ (s.cut r).store.mergedSeen = s.store.mergedSeen := by
  unfold State.cut; (try dsimp only); (repeat' split) <;> simp

@[simp] theorem State.abort_store (r : Bool) (s : State) :
    (s.abort r).store.mem = s.store.mem ∧ (s.abort r).store.writeWait = s.store.writeWait ∧
      (s.abort r).store.layout = s.store.layout ∧ (s.abort r).store.mergedSeen = s.store.mergedSeen := by
  unfold State.abort; simp

@[simp] theorem State.writeFree_store (l : Layout) (x : Staged) (s : State) :
    (s.writeFree l x).store.fifo = s.store.fifo ∧ (s.writeFree l x).store.writeWait = s.store.writeWait ∧
      (s.writeFree l x).store.layout = s.store.layout ∧ (s.writeFree l x).store.reference = s.store.reference ∧
      (s.writeFree l x).store.current = s.store.current ∧ (s.writeFree l x).store.mergedSeen = s.store.mergedSeen := by
  unfold State.writeFree; (try dsimp only); simp

@[simp] theorem State.writeOver_store (l : Layout) (x : Staged) (s : State) :
    (s.writeOver l x).store.fifo = s.store.fifo ∧ (s.writeOver l x).store.writeWait = s.store.writeWait ∧
      (s.writeOver l x).store.layout = s.store.layout ∧ (s.writeOver l x).store.reference = s.store.reference ∧
      (s.writeOver l x).store.current = s.store.current ∧ (s.writeOver l x).store.mergedSeen = s.store.mergedSeen := by
  unfold State.writeOver; (try dsimp only); (repeat' split) <;> simp

@[simp] theorem State.writeStaged_store (s : State) :
    s.writeStaged.store.layout = s.store.layout ∧ s.writeStaged.store.reference = s.store.reference ∧
      s.writeStaged.store.current = s.store.current ∧ s.writeStaged.store.mergedSeen = s.store.mergedSeen := by
  unfold State.writeStaged; (try dsimp only); (repeat' split) <;> simp

@[simp] theorem State.takeFire_store (f : Fire) (s : State) :
    (s.takeFire f).store.mem = s.store.mem ∧ (s.takeFire f).store.writeWait = s.store.writeWait ∧
      (s.takeFire f).store.layout = s.store.layout ∧ (s.takeFire f).store.current = s.store.current ∧
      (s.takeFire f).store.mergedSeen = s.store.mergedSeen := by
  unfold State.takeFire; (repeat' split) <;> simp

@[simp] theorem State.takeHanded_store (s : State) :
    s.takeHanded.store.mem = s.store.mem ∧ s.takeHanded.store.writeWait = s.store.writeWait ∧
      s.takeHanded.store.layout = s.store.layout ∧ s.takeHanded.store.current = s.store.current ∧
      s.takeHanded.store.mergedSeen = s.store.mergedSeen := by
  unfold State.takeHanded; split <;> simp

@[simp] theorem State.takeEarlierFire_store (e : Element) (s : State) :
    (s.takeEarlierFire e).store.mem = s.store.mem ∧ (s.takeEarlierFire e).store.writeWait = s.store.writeWait ∧
      (s.takeEarlierFire e).store.layout = s.store.layout ∧ (s.takeEarlierFire e).store.current = s.store.current ∧
      (s.takeEarlierFire e).store.mergedSeen = s.store.mergedSeen := by
  rcases s.takeEarlierFire_cases e with h | h <;> simp [h]

@[simp] theorem State.takeEdge_store (e : MarkEdge) (late : Bool) (s : State) :
    (s.takeEdge e late).store.mem = s.store.mem ∧ (s.takeEdge e late).store.writeWait = s.store.writeWait ∧
      (s.takeEdge e late).store.layout = s.store.layout ∧ (s.takeEdge e late).store.current = s.store.current ∧
      (s.takeEdge e late).store.mergedSeen = s.store.mergedSeen := by
  unfold State.takeEdge; (try dsimp only); (repeat' split) <;> simp

@[simp] theorem Delivery.consume_store (e : Element) (d : Delivery) (c : Consumer) (s : State) :
    (Delivery.consume e (d, s) c).2.store.mem = s.store.mem ∧
      (Delivery.consume e (d, s) c).2.store.writeWait = s.store.writeWait ∧
      (Delivery.consume e (d, s) c).2.store.layout = s.store.layout := by
  unfold Delivery.consume; (try dsimp only); (repeat' split) <;> simp

@[simp] theorem State.deliver_store (l : List Consumer) (e : Element) (s : State) :
    (s.deliver l e).store.mem = s.store.mem ∧ (s.deliver l e).store.writeWait = s.store.writeWait ∧
      (s.deliver l e).store.layout = s.store.layout := by
  unfold State.deliver
  refine ⟨?_, ?_, ?_⟩
  · exact foldl_keeps (fun x : Delivery × State => x.2.store.mem) _ (fun x c => by cases x; simp) _ _
  · exact foldl_keeps (fun x : Delivery × State => x.2.store.writeWait) _ (fun x c => by cases x; simp) _ _
  · exact foldl_keeps (fun x : Delivery × State => x.2.store.layout) _ (fun x c => by cases x; simp) _ _

@[simp] theorem State.boundary_store (l : List Consumer) (s : State) :
    (s.boundary l).store.mem = s.store.mem ∧ (s.boundary l).store.writeWait = s.store.writeWait ∧
      (s.boundary l).store.layout = s.store.layout := by
  unfold State.boundary; (try dsimp only); simp

@[simp] theorem State.clearSticky_store (s : State) :
    s.clearSticky.store.mem = s.store.mem ∧ s.clearSticky.store.headers = s.store.headers ∧
      s.clearSticky.store.fifo = s.store.fifo ∧ s.clearSticky.store.writeWait = s.store.writeWait ∧
      s.clearSticky.store.layout = s.store.layout ∧ s.clearSticky.store.reference = s.store.reference ∧
      s.clearSticky.store.current = s.store.current := by
  unfold State.clearSticky; (try dsimp only); simp

@[simp] theorem State.compose_store (r : StatusReply) (s : State) :
    (s.compose r).2.store.mem = s.store.mem ∧ (s.compose r).2.store.headers = s.store.headers ∧
      (s.compose r).2.store.fifo = s.store.fifo ∧ (s.compose r).2.store.writeWait = s.store.writeWait ∧
      (s.compose r).2.store.layout = s.store.layout ∧ (s.compose r).2.store.reference = s.store.reference ∧
      (s.compose r).2.store.current = s.store.current := by
  unfold State.compose; (try dsimp only); (repeat' split) <;> simp

@[simp] theorem State.acceptArm_store (s : State) :
    s.acceptArm.store.writeWait = s.store.writeWait ∧ s.acceptArm.store.mergedSeen = s.store.mergedSeen := by
  unfold State.acceptArm; (try dsimp only); simp

@[simp] theorem State.arm_store (s : State) :
    s.arm.store.writeWait = s.store.writeWait ∧ s.arm.store.mergedSeen = s.store.mergedSeen := by
  unfold State.arm; (repeat' split) <;> simp

@[simp] theorem State.takeArm_store (f : RxFrame) (s : State) :
    (State.takeArm f s).store.writeWait = s.store.writeWait ∧
      (State.takeArm f s).store.mergedSeen = s.store.mergedSeen := by
  unfold State.takeArm; (repeat' split) <;> simp

@[simp] theorem State.takeHalt_store (f : RxFrame) (s : State) :
    (State.takeHalt f s).store.mem = s.store.mem ∧ (State.takeHalt f s).store.writeWait = s.store.writeWait ∧
      (State.takeHalt f s).store.layout = s.store.layout ∧
      (State.takeHalt f s).store.mergedSeen = s.store.mergedSeen := by
  unfold State.takeHalt; (repeat' split) <;> simp

@[simp] theorem State.takeBreak_store (s : State) :
    s.takeBreak.store.mem = s.store.mem ∧ s.takeBreak.store.writeWait = s.store.writeWait ∧
      s.takeBreak.store.layout = s.store.layout ∧
      s.takeBreak.store.mergedSeen = s.store.mergedSeen := by
  unfold State.takeBreak; (try dsimp only); (repeat' split) <;> simp

@[simp] theorem State.takeMarkNote_store (f : RxFrame) (s : State) :
    (State.takeMarkNote f s).store.mem = s.store.mem ∧ (State.takeMarkNote f s).store.fifo = s.store.fifo ∧
      (State.takeMarkNote f s).store.writeWait = s.store.writeWait ∧
      (State.takeMarkNote f s).store.layout = s.store.layout ∧
      (State.takeMarkNote f s).store.reference = s.store.reference ∧
      (State.takeMarkNote f s).store.current = s.store.current ∧
      (State.takeMarkNote f s).store.mergedSeen = s.store.mergedSeen := by
  unfold State.takeMarkNote; (try dsimp only); (repeat' split) <;> simp

@[simp] theorem State.placeStatus_store (r : StatusReply) (s : State) :
    (s.placeStatus r).store.mem = s.store.mem ∧ (s.placeStatus r).store.headers = s.store.headers ∧
      (s.placeStatus r).store.fifo = s.store.fifo ∧ (s.placeStatus r).store.writeWait = s.store.writeWait ∧
      (s.placeStatus r).store.layout = s.store.layout ∧ (s.placeStatus r).store.reference = s.store.reference ∧
      (s.placeStatus r).store.current = s.store.current := by
  unfold State.placeStatus
  cases r.composed <;> dsimp only <;> split <;> simp

@[simp] theorem State.place_store (p : Pick) (s : State) :
    (s.place p).store.mem = s.store.mem ∧ (s.place p).store.headers = s.store.headers ∧
      (s.place p).store.fifo = s.store.fifo ∧ (s.place p).store.writeWait = s.store.writeWait ∧
      (s.place p).store.layout = s.store.layout ∧ (s.place p).store.reference = s.store.reference ∧
      (s.place p).store.current = s.store.current := by
  unfold State.place; (try dsimp only); (repeat' split) <;> simp

/-! ## The bus controller -/

@[simp] theorem Bus.goodFrame_fields (b : Bus) :
    b.goodFrame.own = b.own ∧ b.goodFrame.panel = b.panel ∧ b.goodFrame.cadence = b.cadence ∧
      b.goodFrame.line = b.line ∧ b.goodFrame.inBreak = b.inBreak ∧ b.goodFrame.onWire = b.onWire ∧
      b.goodFrame.queue = b.queue ∧ b.goodFrame.rejoin = b.rejoin := by
  unfold Bus.goodFrame; split <;> simp

@[simp] theorem Bus.endFrame_fields (b : Bus) :
    b.endFrame.own = b.own ∧ b.endFrame.panel = b.panel ∧ b.endFrame.cadence = b.cadence ∧
      b.endFrame.inBreak = b.inBreak ∧ b.endFrame.errorFound = false ∧ b.endFrame.onWire = b.onWire ∧
      b.endFrame.queue = b.queue ∧ b.endFrame.score = b.score ∧ b.endFrame.link = b.link ∧
      b.endFrame.rejoin = b.rejoin := by
  simp [Bus.endFrame]

@[simp] theorem Bus.signalError_fields (b : Bus) :
    b.signalError.own = b.own ∧ b.signalError.panel = b.panel ∧ b.signalError.cadence = b.cadence ∧
      b.signalError.inBreak = b.inBreak ∧ b.signalError.onWire = b.onWire ∧ b.signalError.queue = b.queue ∧
      b.signalError.score = b.score ∧ b.signalError.link = b.link ∧ b.signalError.rejoin = b.rejoin := by
  simp [Bus.signalError]

@[simp] theorem Bus.takeBreak_fields (b : Bus) :
    b.takeBreak.own = b.own ∧ b.takeBreak.panel = b.panel ∧ b.takeBreak.cadence = b.cadence ∧
      b.takeBreak.inBreak = true ∧ b.takeBreak.errorFound = false ∧ b.takeBreak.onWire = none ∧
      b.takeBreak.queue = [] ∧ b.takeBreak.score = 0 ∧ b.takeBreak.rejoin = b.rejoin := by
  simp [Bus.takeBreak]

@[simp] theorem State.enqueue_bus (o : Origin) (f : TxFrame) (s : State) :
    (s.enqueue o f).bus.own = s.bus.own ∧ (s.enqueue o f).bus.panel = s.bus.panel ∧
      (s.enqueue o f).bus.cadence = s.bus.cadence ∧ (s.enqueue o f).bus.line = s.bus.line ∧
      (s.enqueue o f).bus.inBreak = s.bus.inBreak ∧ (s.enqueue o f).bus.errorFound = s.bus.errorFound ∧
      (s.enqueue o f).bus.onWire = s.bus.onWire ∧ (s.enqueue o f).bus.score = s.bus.score ∧
      (s.enqueue o f).bus.link = s.bus.link ∧ (s.enqueue o f).bus.rejoin = s.bus.rejoin := by
  unfold State.enqueue; (try dsimp only); simp

@[simp] theorem State.withdraw_bus (p : QEntry → Bool) (s : State) :
    (s.withdraw p).bus.own = s.bus.own ∧ (s.withdraw p).bus.panel = s.bus.panel ∧
      (s.withdraw p).bus.cadence = s.bus.cadence ∧ (s.withdraw p).bus.line = s.bus.line ∧
      (s.withdraw p).bus.inBreak = s.bus.inBreak ∧ (s.withdraw p).bus.errorFound = s.bus.errorFound ∧
      (s.withdraw p).bus.onWire = s.bus.onWire ∧ (s.withdraw p).bus.score = s.bus.score ∧
      (s.withdraw p).bus.link = s.bus.link ∧ (s.withdraw p).bus.rejoin = s.bus.rejoin := by
  unfold State.withdraw; (try dsimp only); simp

@[simp] theorem State.dropWire_bus (s : State) :
    s.dropWire.bus.own = s.bus.own ∧ s.dropWire.bus.panel = s.bus.panel ∧ s.dropWire.bus.cadence = s.bus.cadence ∧
      s.dropWire.bus.line = s.bus.line ∧ s.dropWire.bus.inBreak = s.bus.inBreak ∧
      s.dropWire.bus.errorFound = s.bus.errorFound ∧ s.dropWire.bus.score = s.bus.score ∧
      s.dropWire.bus.link = s.bus.link ∧ s.dropWire.bus.rejoin = s.bus.rejoin := by
  unfold State.dropWire; (try dsimp only); simp

@[simp] theorem State.placeUrgent_bus (o : Origin) (f : TxFrame) (s : State) :
    (s.placeUrgent o f).bus.own = s.bus.own ∧ (s.placeUrgent o f).bus.panel = s.bus.panel ∧
      (s.placeUrgent o f).bus.cadence = s.bus.cadence ∧ (s.placeUrgent o f).bus.line = s.bus.line ∧
      (s.placeUrgent o f).bus.inBreak = s.bus.inBreak ∧ (s.placeUrgent o f).bus.errorFound = s.bus.errorFound ∧
      (s.placeUrgent o f).bus.onWire = s.bus.onWire ∧ (s.placeUrgent o f).bus.score = s.bus.score ∧
      (s.placeUrgent o f).bus.link = s.bus.link ∧ (s.placeUrgent o f).bus.rejoin = s.bus.rejoin := by
  unfold State.placeUrgent; (try dsimp only); (repeat' split) <;> simp

@[simp] theorem State.placeTimeNote_bus (s : State) :
    s.placeTimeNote.bus.own = s.bus.own ∧ s.placeTimeNote.bus.panel = s.bus.panel ∧
      s.placeTimeNote.bus.cadence = s.bus.cadence ∧ s.placeTimeNote.bus.line = s.bus.line ∧
      s.placeTimeNote.bus.inBreak = s.bus.inBreak ∧ s.placeTimeNote.bus.errorFound = s.bus.errorFound ∧
      s.placeTimeNote.bus.onWire = s.bus.onWire ∧ s.placeTimeNote.bus.score = s.bus.score ∧
      s.placeTimeNote.bus.link = s.bus.link ∧ s.placeTimeNote.bus.rejoin = s.bus.rejoin := by
  unfold State.placeTimeNote; (try dsimp only); (repeat' split) <;> simp

@[simp] theorem State.takeGood_bus (f : RxFrame) (s : State) :
    (s.takeGood f).bus.own = s.bus.own ∧ (s.takeGood f).bus.panel = s.bus.panel ∧
      (s.takeGood f).bus.cadence = s.bus.cadence ∧ (s.takeGood f).bus.inBreak = s.bus.inBreak ∧
      (s.takeGood f).bus.onWire = s.bus.onWire ∧ (s.takeGood f).bus.rejoin = s.bus.rejoin := by
  unfold State.takeGood; (try dsimp only); simp

@[simp] theorem State.abandonPass_bus (s : State) :
    s.abandonPass.bus.own = s.bus.own ∧ s.abandonPass.bus.panel = s.bus.panel ∧
      s.abandonPass.bus.cadence = s.bus.cadence ∧ s.abandonPass.bus.line = s.bus.line ∧
      s.abandonPass.bus.inBreak = s.bus.inBreak ∧ s.abandonPass.bus.errorFound = s.bus.errorFound ∧
      s.abandonPass.bus.onWire = s.bus.onWire ∧ s.abandonPass.bus.score = s.bus.score ∧
      s.abandonPass.bus.link = s.bus.link ∧ s.abandonPass.bus.rejoin = s.bus.rejoin := by
  unfold State.abandonPass; (try dsimp only); simp

@[simp] theorem State.startRender_bus (s : State) :
    s.startRender.bus.own = s.bus.own ∧ s.startRender.bus.panel = s.bus.panel ∧
      s.startRender.bus.cadence = s.bus.cadence ∧ s.startRender.bus.line = s.bus.line ∧
      s.startRender.bus.inBreak = s.bus.inBreak ∧ s.startRender.bus.errorFound = s.bus.errorFound ∧
      s.startRender.bus.onWire = s.bus.onWire ∧ s.startRender.bus.score = s.bus.score ∧
      s.startRender.bus.link = s.bus.link ∧ s.startRender.bus.rejoin = s.bus.rejoin := by
  unfold State.startRender; (try dsimp only); repeat' split
  all_goals simp [foldl_keeps (fun x : State => x.bus.own), foldl_keeps (fun x : State => x.bus.panel), foldl_keeps (fun x : State => x.bus.cadence), foldl_keeps (fun x : State => x.bus.line), foldl_keeps (fun x : State => x.bus.inBreak), foldl_keeps (fun x : State => x.bus.errorFound), foldl_keeps (fun x : State => x.bus.onWire), foldl_keeps (fun x : State => x.bus.score), foldl_keeps (fun x : State => x.bus.link), foldl_keeps (fun x : State => x.bus.rejoin)]

@[simp] theorem State.writeView_bus (i : Byte) (p : List Byte) (s : State) :
    (State.writeView i p s).bus.own = s.bus.own ∧ (State.writeView i p s).bus.panel = s.bus.panel ∧
      (State.writeView i p s).bus.cadence = s.bus.cadence ∧ (State.writeView i p s).bus.line = s.bus.line ∧
      (State.writeView i p s).bus.inBreak = s.bus.inBreak ∧
      (State.writeView i p s).bus.errorFound = s.bus.errorFound ∧ (State.writeView i p s).bus.onWire = s.bus.onWire ∧
      (State.writeView i p s).bus.score = s.bus.score ∧ (State.writeView i p s).bus.link = s.bus.link ∧
      (State.writeView i p s).bus.rejoin = s.bus.rejoin := by
  unfold State.writeView; (try dsimp only); (repeat' split) <;> simp

@[simp] theorem State.takeViewPart_bus (f : RxFrame) (s : State) :
    (State.takeViewPart f s).bus.own = s.bus.own ∧ (State.takeViewPart f s).bus.panel = s.bus.panel ∧
      (State.takeViewPart f s).bus.cadence = s.bus.cadence ∧ (State.takeViewPart f s).bus.line = s.bus.line ∧
      (State.takeViewPart f s).bus.inBreak = s.bus.inBreak ∧
      (State.takeViewPart f s).bus.errorFound = s.bus.errorFound ∧
      (State.takeViewPart f s).bus.onWire = s.bus.onWire ∧ (State.takeViewPart f s).bus.score = s.bus.score ∧
      (State.takeViewPart f s).bus.link = s.bus.link ∧ (State.takeViewPart f s).bus.rejoin = s.bus.rejoin := by
  unfold State.takeViewPart; (try dsimp only); (repeat' split) <;> simp

@[simp] theorem State.takeStatusNote_bus (f : RxFrame) (s : State) :
    (State.takeStatusNote f s).bus.own = s.bus.own ∧ (State.takeStatusNote f s).bus.panel = s.bus.panel ∧
      (State.takeStatusNote f s).bus.cadence = s.bus.cadence ∧ (State.takeStatusNote f s).bus.line = s.bus.line ∧
      (State.takeStatusNote f s).bus.inBreak = s.bus.inBreak ∧
      (State.takeStatusNote f s).bus.errorFound = s.bus.errorFound ∧
      (State.takeStatusNote f s).bus.onWire = s.bus.onWire ∧ (State.takeStatusNote f s).bus.score = s.bus.score ∧
      (State.takeStatusNote f s).bus.link = s.bus.link ∧ (State.takeStatusNote f s).bus.rejoin = s.bus.rejoin := by
  unfold State.takeStatusNote; (repeat' split) <;> simp

@[simp] theorem State.finishSegment_bus (k : Fin 8) (r : Bool) (s : State) :
    (s.finishSegment k r).bus.own = s.bus.own ∧ (s.finishSegment k r).bus.panel = s.bus.panel ∧
      (s.finishSegment k r).bus.cadence = s.bus.cadence ∧ (s.finishSegment k r).bus.line = s.bus.line ∧
      (s.finishSegment k r).bus.inBreak = s.bus.inBreak ∧ (s.finishSegment k r).bus.errorFound = s.bus.errorFound ∧
      (s.finishSegment k r).bus.onWire = s.bus.onWire ∧ (s.finishSegment k r).bus.score = s.bus.score ∧
      (s.finishSegment k r).bus.link = s.bus.link ∧ (s.finishSegment k r).bus.rejoin = s.bus.rejoin := by
  unfold State.finishSegment; (try dsimp only); (repeat' split) <;> simp

@[simp] theorem State.closeSegment_bus (l : Layout) (c : Current) (e : Element) (s : State) :
    (s.closeSegment l c e).bus.own = s.bus.own ∧ (s.closeSegment l c e).bus.panel = s.bus.panel ∧
      (s.closeSegment l c e).bus.cadence = s.bus.cadence ∧ (s.closeSegment l c e).bus.line = s.bus.line ∧
      (s.closeSegment l c e).bus.inBreak = s.bus.inBreak ∧ (s.closeSegment l c e).bus.errorFound = s.bus.errorFound ∧
      (s.closeSegment l c e).bus.onWire = s.bus.onWire ∧ (s.closeSegment l c e).bus.score = s.bus.score ∧
      (s.closeSegment l c e).bus.link = s.bus.link ∧ (s.closeSegment l c e).bus.rejoin = s.bus.rejoin := by
  unfold State.closeSegment; (try dsimp only); simp

@[simp] theorem State.takeFirst_bus (l : Layout) (c : Current) (e : Element) (s : State) :
    (s.takeFirst l c e).bus.own = s.bus.own ∧ (s.takeFirst l c e).bus.panel = s.bus.panel ∧
      (s.takeFirst l c e).bus.cadence = s.bus.cadence ∧ (s.takeFirst l c e).bus.line = s.bus.line ∧
      (s.takeFirst l c e).bus.inBreak = s.bus.inBreak ∧
      (s.takeFirst l c e).bus.errorFound = s.bus.errorFound ∧ (s.takeFirst l c e).bus.onWire = s.bus.onWire ∧
      (s.takeFirst l c e).bus.score = s.bus.score ∧ (s.takeFirst l c e).bus.link = s.bus.link ∧
      (s.takeFirst l c e).bus.rejoin = s.bus.rejoin := by
  unfold State.takeFirst; (try dsimp only); (repeat' split) <;> simp

@[simp] theorem State.takeElement_bus (l : Layout) (c : Current) (f : Reference) (e : Element) (s : State) :
    (s.takeElement l c f e).bus.own = s.bus.own ∧ (s.takeElement l c f e).bus.panel = s.bus.panel ∧
      (s.takeElement l c f e).bus.cadence = s.bus.cadence ∧ (s.takeElement l c f e).bus.line = s.bus.line ∧
      (s.takeElement l c f e).bus.inBreak = s.bus.inBreak ∧
      (s.takeElement l c f e).bus.errorFound = s.bus.errorFound ∧ (s.takeElement l c f e).bus.onWire = s.bus.onWire ∧
      (s.takeElement l c f e).bus.score = s.bus.score ∧ (s.takeElement l c f e).bus.link = s.bus.link ∧
      (s.takeElement l c f e).bus.rejoin = s.bus.rejoin := by
  unfold State.takeElement; (try dsimp only); (repeat' split) <;> simp

@[simp] theorem State.takeBoundary_bus (e : Element) (s : State) :
    (s.takeBoundary e).bus.own = s.bus.own ∧ (s.takeBoundary e).bus.panel = s.bus.panel ∧
      (s.takeBoundary e).bus.cadence = s.bus.cadence ∧ (s.takeBoundary e).bus.line = s.bus.line ∧
      (s.takeBoundary e).bus.inBreak = s.bus.inBreak ∧ (s.takeBoundary e).bus.errorFound = s.bus.errorFound ∧
      (s.takeBoundary e).bus.onWire = s.bus.onWire ∧ (s.takeBoundary e).bus.score = s.bus.score ∧
      (s.takeBoundary e).bus.link = s.bus.link ∧ (s.takeBoundary e).bus.rejoin = s.bus.rejoin := by
  unfold State.takeBoundary; (repeat' split) <;> simp

@[simp] theorem State.storeElement_bus (e : Element) (s : State) :
    (s.storeElement e).bus.own = s.bus.own ∧ (s.storeElement e).bus.panel = s.bus.panel ∧
      (s.storeElement e).bus.cadence = s.bus.cadence ∧ (s.storeElement e).bus.line = s.bus.line ∧
      (s.storeElement e).bus.inBreak = s.bus.inBreak ∧ (s.storeElement e).bus.errorFound = s.bus.errorFound ∧
      (s.storeElement e).bus.onWire = s.bus.onWire ∧ (s.storeElement e).bus.score = s.bus.score ∧
      (s.storeElement e).bus.link = s.bus.link ∧ (s.storeElement e).bus.rejoin = s.bus.rejoin := by
  unfold State.storeElement; simp

@[simp] theorem State.cut_bus (r : Bool) (s : State) :
    (s.cut r).bus.own = s.bus.own ∧ (s.cut r).bus.panel = s.bus.panel ∧ (s.cut r).bus.cadence = s.bus.cadence ∧
      (s.cut r).bus.line = s.bus.line ∧ (s.cut r).bus.inBreak = s.bus.inBreak ∧
      (s.cut r).bus.errorFound = s.bus.errorFound ∧ (s.cut r).bus.onWire = s.bus.onWire ∧
      (s.cut r).bus.score = s.bus.score ∧ (s.cut r).bus.link = s.bus.link ∧
      (s.cut r).bus.rejoin = s.bus.rejoin := by
  unfold State.cut; (try dsimp only); (repeat' split) <;> simp

@[simp] theorem State.abort_bus (r : Bool) (s : State) :
    (s.abort r).bus.own = s.bus.own ∧ (s.abort r).bus.panel = s.bus.panel ∧ (s.abort r).bus.cadence = s.bus.cadence ∧
      (s.abort r).bus.line = s.bus.line ∧ (s.abort r).bus.inBreak = s.bus.inBreak ∧
      (s.abort r).bus.errorFound = s.bus.errorFound ∧ (s.abort r).bus.onWire = s.bus.onWire ∧
      (s.abort r).bus.score = s.bus.score ∧ (s.abort r).bus.link = s.bus.link ∧
      (s.abort r).bus.rejoin = s.bus.rejoin := by
  unfold State.abort; simp

@[simp] theorem State.writeStaged_bus (s : State) :
    s.writeStaged.bus.own = s.bus.own ∧ s.writeStaged.bus.panel = s.bus.panel ∧
      s.writeStaged.bus.cadence = s.bus.cadence ∧ s.writeStaged.bus.line = s.bus.line ∧
      s.writeStaged.bus.inBreak = s.bus.inBreak ∧ s.writeStaged.bus.errorFound = s.bus.errorFound ∧
      s.writeStaged.bus.onWire = s.bus.onWire ∧ s.writeStaged.bus.score = s.bus.score ∧
      s.writeStaged.bus.link = s.bus.link ∧ s.writeStaged.bus.rejoin = s.bus.rejoin := by
  unfold State.writeStaged; (try dsimp only); (repeat' split) <;> simp

@[simp] theorem State.queueMarkNote_bus (f : Fire) (t : StationTime) (s : State) :
    (s.queueMarkNote f t).bus.own = s.bus.own ∧ (s.queueMarkNote f t).bus.panel = s.bus.panel ∧
      (s.queueMarkNote f t).bus.cadence = s.bus.cadence ∧ (s.queueMarkNote f t).bus.line = s.bus.line ∧
      (s.queueMarkNote f t).bus.inBreak = s.bus.inBreak ∧ (s.queueMarkNote f t).bus.errorFound = s.bus.errorFound ∧
      (s.queueMarkNote f t).bus.onWire = s.bus.onWire ∧ (s.queueMarkNote f t).bus.score = s.bus.score ∧
      (s.queueMarkNote f t).bus.link = s.bus.link ∧ (s.queueMarkNote f t).bus.rejoin = s.bus.rejoin := by
  unfold State.queueMarkNote; simp

@[simp] theorem State.takeEdge_bus (e : MarkEdge) (late : Bool) (s : State) :
    (s.takeEdge e late).bus.own = s.bus.own ∧ (s.takeEdge e late).bus.panel = s.bus.panel ∧
      (s.takeEdge e late).bus.cadence = s.bus.cadence ∧ (s.takeEdge e late).bus.line = s.bus.line ∧
      (s.takeEdge e late).bus.inBreak = s.bus.inBreak ∧ (s.takeEdge e late).bus.errorFound = s.bus.errorFound ∧
      (s.takeEdge e late).bus.onWire = s.bus.onWire ∧ (s.takeEdge e late).bus.score = s.bus.score ∧
      (s.takeEdge e late).bus.link = s.bus.link ∧ (s.takeEdge e late).bus.rejoin = s.bus.rejoin := by
  unfold State.takeEdge; (try dsimp only); (repeat' split) <;> simp

@[simp] theorem Delivery.consume_bus (e : Element) (d : Delivery) (c : Consumer) (s : State) :
    (Delivery.consume e (d, s) c).2.bus.own = s.bus.own ∧ (Delivery.consume e (d, s) c).2.bus.panel = s.bus.panel ∧
      (Delivery.consume e (d, s) c).2.bus.cadence = s.bus.cadence ∧
      (Delivery.consume e (d, s) c).2.bus.line = s.bus.line ∧
      (Delivery.consume e (d, s) c).2.bus.inBreak = s.bus.inBreak ∧
      (Delivery.consume e (d, s) c).2.bus.errorFound = s.bus.errorFound ∧
      (Delivery.consume e (d, s) c).2.bus.onWire = s.bus.onWire ∧
      (Delivery.consume e (d, s) c).2.bus.score = s.bus.score ∧
      (Delivery.consume e (d, s) c).2.bus.link = s.bus.link ∧
      (Delivery.consume e (d, s) c).2.bus.rejoin = s.bus.rejoin := by
  unfold Delivery.consume; (try dsimp only); (repeat' split) <;> simp

@[simp] theorem State.deliver_bus (l : List Consumer) (e : Element) (s : State) :
    (s.deliver l e).bus.own = s.bus.own ∧ (s.deliver l e).bus.panel = s.bus.panel ∧
      (s.deliver l e).bus.cadence = s.bus.cadence ∧ (s.deliver l e).bus.line = s.bus.line ∧
      (s.deliver l e).bus.inBreak = s.bus.inBreak ∧ (s.deliver l e).bus.errorFound = s.bus.errorFound ∧
      (s.deliver l e).bus.onWire = s.bus.onWire ∧ (s.deliver l e).bus.score = s.bus.score ∧
      (s.deliver l e).bus.link = s.bus.link ∧ (s.deliver l e).bus.rejoin = s.bus.rejoin := by
  unfold State.deliver
  refine ⟨?_, ?_, ?_, ?_, ?_, ?_, ?_, ?_, ?_, ?_⟩
  · exact foldl_keeps (fun x : Delivery × State => x.2.bus.own) _ (fun x c => by cases x; simp) _ _
  · exact foldl_keeps (fun x : Delivery × State => x.2.bus.panel) _ (fun x c => by cases x; simp) _ _
  · exact foldl_keeps (fun x : Delivery × State => x.2.bus.cadence) _ (fun x c => by cases x; simp) _ _
  · exact foldl_keeps (fun x : Delivery × State => x.2.bus.line) _ (fun x c => by cases x; simp) _ _
  · exact foldl_keeps (fun x : Delivery × State => x.2.bus.inBreak) _ (fun x c => by cases x; simp) _ _
  · exact foldl_keeps (fun x : Delivery × State => x.2.bus.errorFound) _ (fun x c => by cases x; simp) _ _
  · exact foldl_keeps (fun x : Delivery × State => x.2.bus.onWire) _ (fun x c => by cases x; simp) _ _
  · exact foldl_keeps (fun x : Delivery × State => x.2.bus.score) _ (fun x c => by cases x; simp) _ _
  · exact foldl_keeps (fun x : Delivery × State => x.2.bus.link) _ (fun x c => by cases x; simp) _ _
  · exact foldl_keeps (fun x : Delivery × State => x.2.bus.rejoin) _ (fun x c => by cases x; simp) _ _

@[simp] theorem State.boundary_bus (l : List Consumer) (s : State) :
    (s.boundary l).bus.own = s.bus.own ∧ (s.boundary l).bus.panel = s.bus.panel ∧
      (s.boundary l).bus.cadence = s.bus.cadence ∧ (s.boundary l).bus.line = s.bus.line ∧
      (s.boundary l).bus.inBreak = s.bus.inBreak ∧ (s.boundary l).bus.errorFound = s.bus.errorFound ∧
      (s.boundary l).bus.onWire = s.bus.onWire ∧ (s.boundary l).bus.score = s.bus.score ∧
      (s.boundary l).bus.link = s.bus.link ∧ (s.boundary l).bus.rejoin = s.bus.rejoin := by
  unfold State.boundary; (try dsimp only); simp

@[simp] theorem State.abandonEntry_bus (i : Nat) (s : State) :
    (s.abandonEntry i).bus.own = s.bus.own ∧ (s.abandonEntry i).bus.panel = s.bus.panel ∧
      (s.abandonEntry i).bus.cadence = s.bus.cadence ∧ (s.abandonEntry i).bus.line = s.bus.line ∧
      (s.abandonEntry i).bus.inBreak = s.bus.inBreak ∧ (s.abandonEntry i).bus.errorFound = s.bus.errorFound ∧
      (s.abandonEntry i).bus.onWire = s.bus.onWire ∧ (s.abandonEntry i).bus.score = s.bus.score ∧
      (s.abandonEntry i).bus.link = s.bus.link ∧ (s.abandonEntry i).bus.rejoin = s.bus.rejoin := by
  unfold State.abandonEntry; (try dsimp only); simp

@[simp] theorem State.takeAsk_bus (w : Bool) (f : RxFrame) (s : State) :
    (State.takeAsk w f s).bus.own = s.bus.own ∧ (State.takeAsk w f s).bus.panel = s.bus.panel ∧
      (State.takeAsk w f s).bus.cadence = s.bus.cadence ∧ (State.takeAsk w f s).bus.line = s.bus.line ∧
      (State.takeAsk w f s).bus.inBreak = s.bus.inBreak ∧ (State.takeAsk w f s).bus.errorFound = s.bus.errorFound ∧
      (State.takeAsk w f s).bus.onWire = s.bus.onWire ∧ (State.takeAsk w f s).bus.score = s.bus.score ∧
      (State.takeAsk w f s).bus.link = s.bus.link ∧ (State.takeAsk w f s).bus.rejoin = s.bus.rejoin := by
  unfold State.takeAsk; (try dsimp only); (repeat' split) <;> simp

@[simp] theorem State.takeStop_bus (f : RxFrame) (s : State) :
    (State.takeStop f s).bus.own = s.bus.own ∧ (State.takeStop f s).bus.panel = s.bus.panel ∧
      (State.takeStop f s).bus.cadence = s.bus.cadence ∧ (State.takeStop f s).bus.line = s.bus.line ∧
      (State.takeStop f s).bus.inBreak = s.bus.inBreak ∧ (State.takeStop f s).bus.errorFound = s.bus.errorFound ∧
      (State.takeStop f s).bus.onWire = s.bus.onWire ∧ (State.takeStop f s).bus.score = s.bus.score ∧
      (State.takeStop f s).bus.link = s.bus.link ∧ (State.takeStop f s).bus.rejoin = s.bus.rejoin := by
  unfold State.takeStop; (try dsimp only); (repeat' split) <;> simp

@[simp] theorem State.partLost_bus (i : Nat) (s : State) :
    (s.partLost i).bus.own = s.bus.own ∧ (s.partLost i).bus.panel = s.bus.panel ∧
      (s.partLost i).bus.cadence = s.bus.cadence ∧ (s.partLost i).bus.line = s.bus.line ∧
      (s.partLost i).bus.inBreak = s.bus.inBreak ∧ (s.partLost i).bus.errorFound = s.bus.errorFound ∧
      (s.partLost i).bus.onWire = s.bus.onWire ∧ (s.partLost i).bus.score = s.bus.score ∧
      (s.partLost i).bus.link = s.bus.link ∧ (s.partLost i).bus.rejoin = s.bus.rejoin := by
  unfold State.partLost; (repeat' split) <;> simp

@[simp] theorem State.asksGone_bus (s : State) :
    s.asksGone.bus.own = s.bus.own ∧ s.asksGone.bus.panel = s.bus.panel ∧ s.asksGone.bus.cadence = s.bus.cadence ∧
      s.asksGone.bus.line = s.bus.line ∧ s.asksGone.bus.inBreak = s.bus.inBreak ∧
      s.asksGone.bus.errorFound = s.bus.errorFound ∧ s.asksGone.bus.onWire = s.bus.onWire ∧
      s.asksGone.bus.score = s.bus.score ∧ s.asksGone.bus.link = s.bus.link ∧ s.asksGone.bus.rejoin = s.bus.rejoin := by
  unfold State.asksGone; (try dsimp only)
  simp [foldl_keeps (fun x : State => x.bus.own), foldl_keeps (fun x : State => x.bus.panel), foldl_keeps (fun x : State => x.bus.cadence), foldl_keeps (fun x : State => x.bus.line), foldl_keeps (fun x : State => x.bus.inBreak), foldl_keeps (fun x : State => x.bus.errorFound), foldl_keeps (fun x : State => x.bus.onWire), foldl_keeps (fun x : State => x.bus.score), foldl_keeps (fun x : State => x.bus.link), foldl_keeps (fun x : State => x.bus.rejoin)]

@[simp] theorem State.askerAbsent_bus (p : Station) (s : State) :
    (s.askerAbsent p).bus.own = s.bus.own ∧ (s.askerAbsent p).bus.panel = s.bus.panel ∧
      (s.askerAbsent p).bus.cadence = s.bus.cadence ∧ (s.askerAbsent p).bus.line = s.bus.line ∧
      (s.askerAbsent p).bus.inBreak = s.bus.inBreak ∧ (s.askerAbsent p).bus.errorFound = s.bus.errorFound ∧
      (s.askerAbsent p).bus.onWire = s.bus.onWire ∧ (s.askerAbsent p).bus.score = s.bus.score ∧
      (s.askerAbsent p).bus.link = s.bus.link ∧ (s.askerAbsent p).bus.rejoin = s.bus.rejoin := by
  unfold State.askerAbsent; (try dsimp only); simp

@[simp] theorem State.acceptArm_bus (s : State) :
    s.acceptArm.bus.own = s.bus.own ∧ s.acceptArm.bus.panel = s.bus.panel ∧ s.acceptArm.bus.cadence = s.bus.cadence ∧
      s.acceptArm.bus.line = s.bus.line ∧ s.acceptArm.bus.inBreak = s.bus.inBreak ∧
      s.acceptArm.bus.errorFound = s.bus.errorFound ∧ s.acceptArm.bus.onWire = s.bus.onWire ∧
      s.acceptArm.bus.score = s.bus.score ∧ s.acceptArm.bus.link = s.bus.link ∧
      s.acceptArm.bus.rejoin = s.bus.rejoin := by
  unfold State.acceptArm; (try dsimp only); simp

@[simp] theorem State.arm_bus (s : State) :
    s.arm.bus.own = s.bus.own ∧ s.arm.bus.panel = s.bus.panel ∧ s.arm.bus.cadence = s.bus.cadence ∧
      s.arm.bus.line = s.bus.line ∧ s.arm.bus.inBreak = s.bus.inBreak ∧ s.arm.bus.errorFound = s.bus.errorFound ∧
      s.arm.bus.onWire = s.bus.onWire ∧ s.arm.bus.score = s.bus.score ∧ s.arm.bus.link = s.bus.link ∧
      s.arm.bus.rejoin = s.bus.rejoin := by
  unfold State.arm; (repeat' split) <;> simp

@[simp] theorem State.takeArm_bus (f : RxFrame) (s : State) :
    (State.takeArm f s).bus.own = s.bus.own ∧ (State.takeArm f s).bus.panel = s.bus.panel ∧
      (State.takeArm f s).bus.cadence = s.bus.cadence ∧ (State.takeArm f s).bus.line = s.bus.line ∧
      (State.takeArm f s).bus.inBreak = s.bus.inBreak ∧ (State.takeArm f s).bus.errorFound = s.bus.errorFound ∧
      (State.takeArm f s).bus.onWire = s.bus.onWire ∧ (State.takeArm f s).bus.score = s.bus.score ∧
      (State.takeArm f s).bus.link = s.bus.link ∧ (State.takeArm f s).bus.rejoin = s.bus.rejoin := by
  unfold State.takeArm; (repeat' split) <;> simp

@[simp] theorem State.takeHalt_bus (f : RxFrame) (s : State) :
    (State.takeHalt f s).bus.own = s.bus.own ∧ (State.takeHalt f s).bus.panel = s.bus.panel ∧
      (State.takeHalt f s).bus.cadence = s.bus.cadence ∧ (State.takeHalt f s).bus.line = s.bus.line ∧
      (State.takeHalt f s).bus.inBreak = s.bus.inBreak ∧ (State.takeHalt f s).bus.errorFound = s.bus.errorFound ∧
      (State.takeHalt f s).bus.onWire = s.bus.onWire ∧ (State.takeHalt f s).bus.score = s.bus.score ∧
      (State.takeHalt f s).bus.link = s.bus.link ∧ (State.takeHalt f s).bus.rejoin = s.bus.rejoin := by
  unfold State.takeHalt; (repeat' split) <;> simp

@[simp] theorem State.reportLost_bus (e : QEntry) (s : State) :
    (s.reportLost e).bus.own = s.bus.own ∧ (s.reportLost e).bus.panel = s.bus.panel ∧
      (s.reportLost e).bus.cadence = s.bus.cadence ∧ (s.reportLost e).bus.line = s.bus.line ∧
      (s.reportLost e).bus.inBreak = s.bus.inBreak ∧ (s.reportLost e).bus.errorFound = s.bus.errorFound ∧
      (s.reportLost e).bus.onWire = s.bus.onWire ∧ (s.reportLost e).bus.score = s.bus.score ∧
      (s.reportLost e).bus.link = s.bus.link ∧ (s.reportLost e).bus.rejoin = s.bus.rejoin := by
  unfold State.reportLost; (repeat' split) <;> simp

@[simp] theorem State.placeWaitingNote_bus (s : State) :
    s.placeWaitingNote.bus.own = s.bus.own ∧ s.placeWaitingNote.bus.panel = s.bus.panel ∧
      s.placeWaitingNote.bus.cadence = s.bus.cadence ∧ s.placeWaitingNote.bus.line = s.bus.line ∧
      s.placeWaitingNote.bus.inBreak = s.bus.inBreak ∧ s.placeWaitingNote.bus.errorFound = s.bus.errorFound ∧
      s.placeWaitingNote.bus.onWire = s.bus.onWire ∧ s.placeWaitingNote.bus.score = s.bus.score ∧
      s.placeWaitingNote.bus.link = s.bus.link ∧ s.placeWaitingNote.bus.rejoin = s.bus.rejoin := by
  unfold State.placeWaitingNote; (try dsimp only); (repeat' split) <;> simp

@[simp] theorem State.enterSilent_bus (l : LinkState) (s : State) :
    (s.enterSilent l).bus.own = s.bus.own ∧ (s.enterSilent l).bus.panel = s.bus.panel ∧
      (s.enterSilent l).bus.cadence = s.bus.cadence ∧ (s.enterSilent l).bus.line = s.bus.line ∧
      (s.enterSilent l).bus.inBreak = s.bus.inBreak ∧ (s.enterSilent l).bus.errorFound = s.bus.errorFound ∧
      (s.enterSilent l).bus.score = s.bus.score := by
  unfold State.enterSilent; (try dsimp only); repeat' split
  all_goals simp [foldl_keeps (fun x : State => x.bus.own), foldl_keeps (fun x : State => x.bus.panel), foldl_keeps (fun x : State => x.bus.cadence), foldl_keeps (fun x : State => x.bus.line), foldl_keeps (fun x : State => x.bus.inBreak), foldl_keeps (fun x : State => x.bus.errorFound), foldl_keeps (fun x : State => x.bus.score)]

@[simp] theorem State.rejoinBus_bus (s : State) :
    s.rejoinBus.bus.own = s.bus.own ∧ s.rejoinBus.bus.panel = s.bus.panel ∧ s.rejoinBus.bus.cadence = s.bus.cadence ∧
      s.rejoinBus.bus.line = s.bus.line ∧ s.rejoinBus.bus.inBreak = s.bus.inBreak ∧
      s.rejoinBus.bus.errorFound = s.bus.errorFound ∧ s.rejoinBus.bus.onWire = s.bus.onWire := by
  unfold State.rejoinBus; (try dsimp only); simp

@[simp] theorem State.setScore_bus (n : Nat) (s : State) :
    (s.setScore n).bus.own = s.bus.own ∧ (s.setScore n).bus.panel = s.bus.panel ∧
      (s.setScore n).bus.cadence = s.bus.cadence ∧ (s.setScore n).bus.line = s.bus.line ∧
      (s.setScore n).bus.inBreak = s.bus.inBreak ∧ (s.setScore n).bus.errorFound = s.bus.errorFound := by
  unfold State.setScore; (try dsimp only); (repeat' split) <;> simp

@[simp] theorem State.takeRxError_bus (s : State) :
    s.takeRxError.bus.own = s.bus.own ∧ s.takeRxError.bus.panel = s.bus.panel ∧
      s.takeRxError.bus.cadence = s.bus.cadence ∧ s.takeRxError.bus.inBreak = s.bus.inBreak := by
  unfold State.takeRxError; (try dsimp only); (repeat' split) <;> simp

@[simp] theorem State.takeBreak_bus (s : State) :
    s.takeBreak.bus.own = s.bus.own ∧ s.takeBreak.bus.panel = s.bus.panel ∧
      s.takeBreak.bus.cadence = s.bus.cadence := by
  unfold State.takeBreak; (try dsimp only); (repeat' split) <;> simp

@[simp] theorem State.duplicateFound_bus (s : State) :
    s.duplicateFound.bus.own = s.bus.own ∧ s.duplicateFound.bus.panel = s.bus.panel ∧
      s.duplicateFound.bus.cadence = s.bus.cadence ∧ s.duplicateFound.bus.line = s.bus.line ∧
      s.duplicateFound.bus.inBreak = s.bus.inBreak ∧ s.duplicateFound.bus.errorFound = s.bus.errorFound ∧
      s.duplicateFound.bus.score = s.bus.score := by
  unfold State.duplicateFound; (repeat' split) <;> simp

@[simp] theorem State.takeRollCall_bus (w : Bool) (f : RxFrame) (s : State) :
    (State.takeRollCall w f s).bus.own = s.bus.own ∧ (State.takeRollCall w f s).bus.panel = s.bus.panel ∧
      (State.takeRollCall w f s).bus.cadence = s.bus.cadence ∧ (State.takeRollCall w f s).bus.line = s.bus.line ∧
      (State.takeRollCall w f s).bus.inBreak = s.bus.inBreak ∧
      (State.takeRollCall w f s).bus.errorFound = s.bus.errorFound ∧
      (State.takeRollCall w f s).bus.score = s.bus.score := by
  unfold State.takeRollCall; (try dsimp only); (repeat' split) <;> simp

@[simp] theorem State.enqueueHeld_bus (h : Held) (s : State) :
    (s.enqueueHeld h).bus.own = s.bus.own ∧ (s.enqueueHeld h).bus.panel = s.bus.panel ∧
      (s.enqueueHeld h).bus.cadence = s.bus.cadence ∧ (s.enqueueHeld h).bus.line = s.bus.line ∧
      (s.enqueueHeld h).bus.inBreak = s.bus.inBreak ∧ (s.enqueueHeld h).bus.errorFound = s.bus.errorFound ∧
      (s.enqueueHeld h).bus.onWire = s.bus.onWire ∧ (s.enqueueHeld h).bus.score = s.bus.score ∧
      (s.enqueueHeld h).bus.link = s.bus.link ∧ (s.enqueueHeld h).bus.rejoin = s.bus.rejoin := by
  unfold State.enqueueHeld; simp

@[simp] theorem State.placePart_bus (e : AskEntry) (p : Part) (s : State) :
    (s.placePart e p).bus.own = s.bus.own ∧ (s.placePart e p).bus.panel = s.bus.panel ∧
      (s.placePart e p).bus.cadence = s.bus.cadence ∧ (s.placePart e p).bus.line = s.bus.line ∧
      (s.placePart e p).bus.inBreak = s.bus.inBreak ∧ (s.placePart e p).bus.errorFound = s.bus.errorFound ∧
      (s.placePart e p).bus.onWire = s.bus.onWire ∧ (s.placePart e p).bus.score = s.bus.score ∧
      (s.placePart e p).bus.link = s.bus.link ∧ (s.placePart e p).bus.rejoin = s.bus.rejoin := by
  unfold State.placePart; (try dsimp only); (repeat' split) <;> simp

@[simp] theorem State.placeStatus_bus (r : StatusReply) (s : State) :
    (s.placeStatus r).bus.own = s.bus.own ∧ (s.placeStatus r).bus.panel = s.bus.panel ∧
      (s.placeStatus r).bus.cadence = s.bus.cadence ∧ (s.placeStatus r).bus.line = s.bus.line ∧
      (s.placeStatus r).bus.inBreak = s.bus.inBreak ∧ (s.placeStatus r).bus.errorFound = s.bus.errorFound ∧
      (s.placeStatus r).bus.onWire = s.bus.onWire ∧ (s.placeStatus r).bus.score = s.bus.score ∧
      (s.placeStatus r).bus.link = s.bus.link ∧ (s.placeStatus r).bus.rejoin = s.bus.rejoin := by
  unfold State.placeStatus
  cases r.composed <;> dsimp only <;> split <;> simp

@[simp] theorem State.place_bus (p : Pick) (s : State) :
    (s.place p).bus.own = s.bus.own ∧ (s.place p).bus.panel = s.bus.panel ∧ (s.place p).bus.cadence = s.bus.cadence ∧
      (s.place p).bus.line = s.bus.line ∧ (s.place p).bus.inBreak = s.bus.inBreak ∧
      (s.place p).bus.errorFound = s.bus.errorFound ∧ (s.place p).bus.onWire = s.bus.onWire ∧
      (s.place p).bus.score = s.bus.score ∧ (s.place p).bus.link = s.bus.link ∧
      (s.place p).bus.rejoin = s.bus.rejoin := by
  unfold State.place; (try dsimp only); (repeat' split) <;> simp

end Sys2Proof.Machine
end

