-- ==== Sys2Proof/Laws/Memory.lean ====
section
/-! SUPPORT. The laws of the two addressed memories, the record memory and the frame buffer: reading after writing, and
that every operation keeps the canonical form. -/

namespace Sys2Proof.Machine

/-! ## Reading after writing -/

@[simp] theorem lookup_insertAt_same {α : Type} (l : List (Nat × α)) (k : Nat) (x : α) :
    lookup (insertAt l k x) k = some x := by
  induction l with
  | nil => simp [insertAt, lookup]
  | cons c l ih =>
    obtain ⟨a, v⟩ := c
    unfold insertAt
    split
    · simp [lookup]
    · split
      · simp [lookup]
      · rename_i h
        simp [lookup, Ne.symm h, ih]

theorem lookup_insertAt_other {α : Type} (l : List (Nat × α)) {k j : Nat} (x : α) (h : j ≠ k) :
    lookup (insertAt l k x) j = lookup l j := by
  induction l with
  | nil => simp [insertAt, lookup, Ne.symm h]
  | cons c l ih =>
    obtain ⟨a, v⟩ := c
    unfold insertAt
    split
    · simp [lookup, Ne.symm h]
    · split
      · rename_i h'
        subst h'
        simp [lookup, Ne.symm h]
      · simp [lookup, ih]

/-- What a place of the record memory reads as after a write: the record at the place written, else as before. -/
theorem Store.read_write (st : Store) (p q : Nat) (r : Rec) :
    (st.write p r).read q = if q = p ∧ p < Config.recordPlaces then some r else st.read q := by
  unfold Store.write Store.read
  split
  · by_cases h : q = p
    · subst h; simp_all
    · simp [h, lookup_insertAt_other _ _ h]
  · rename_i hp
    rw [if_neg fun h => hp h.2]

/-! ## The canonical form -/

/-- The addresses of an ordered list all lie above a bound that is below its first one. -/
theorem rising_cons {α : Type} (c : Nat × α) (l : List (Nat × α)) :
    rising (c :: l) = true ↔ (∀ x ∈ l.head?, c.1 < x.1) ∧ rising l = true := by
  cases l with
  | nil => simp [rising]
  | cons y l => simp [rising]

theorem head_insertAt {α : Type} (l : List (Nat × α)) (k : Nat) (x : α) (n : Nat) (hk : n < k)
    (h : ∀ y ∈ l.head?, n < y.1) : ∀ y ∈ (insertAt l k x).head?, n < y.1 := by
  cases l with
  | nil => simpa [insertAt] using hk
  | cons c l =>
    obtain ⟨a, v⟩ := c
    simp only [List.head?_cons, Option.mem_def, Option.some.injEq, forall_eq'] at h
    unfold insertAt
    split
    · simpa using hk
    · split <;> simp_all

theorem rising_insertAt {α : Type} (l : List (Nat × α)) (k : Nat) (x : α) (h : rising l = true) :
    rising (insertAt l k x) = true := by
  induction l with
  | nil => simp [insertAt, rising]
  | cons c l ih =>
    obtain ⟨a, v⟩ := c
    obtain ⟨h1, h2⟩ := (rising_cons _ _).1 h
    unfold insertAt
    split
    · rename_i hk
      exact (rising_cons _ _).2 ⟨by simpa using hk, h⟩
    · split
      · rename_i hk
        subst hk
        exact (rising_cons _ _).2 ⟨h1, h2⟩
      · rename_i hk hk'
        exact (rising_cons _ _).2 ⟨head_insertAt l k x a (by omega) h1, ih h2⟩

theorem all_insertAt {α : Type} (p : Nat × α → Bool) (l : List (Nat × α)) (k : Nat) (x : α) (hx : p (k, x) = true)
    (h : l.all p = true) : (insertAt l k x).all p = true := by
  induction l with
  | nil => simpa [insertAt] using hx
  | cons c l ih =>
    obtain ⟨a, v⟩ := c
    unfold insertAt
    split
    · simp_all
    · split <;> simp_all

/-- Writing a record keeps the canonical form of the record memory. -/
theorem Store.memWf_write (st : Store) (p : Nat) (r : Rec) (h : Store.memWf st.mem = true) :
    Store.memWf (st.write p r).mem = true := by
  unfold Store.write
  split
  · rename_i hp
    simp only [Store.memWf, Bool.and_eq_true] at h ⊢
    exact ⟨rising_insertAt _ _ _ h.1, all_insertAt _ _ _ _ (by simpa using hp) h.2⟩
  · exact h

/-- The cells made from an increasing list of addresses rise. -/
theorem rising_filterMap (f : Nat → Byte) (l : List Nat) (h : l.Pairwise (· < ·)) :
    rising (l.filterMap fun a => if f a = 0 then none else some (a, f a)) = true := by
  induction l with
  | nil => rfl
  | cons a l ih =>
    obtain ⟨h1, h2⟩ := List.pairwise_cons.1 h
    rw [List.filterMap_cons]
    split
    · exact ih h2
    · rename_i c hc
      refine (rising_cons _ _).2 ⟨fun x hx => ?_, ih h2⟩
      have hx' := List.mem_of_mem_head? hx
      simp only [List.mem_filterMap] at hx'
      obtain ⟨b, hb, he⟩ := hx'
      have hlt := h1 b hb
      split at hc
      · cases hc
      · split at he
        · cases he
        · cases hc; cases he; exact hlt

/-- A frame buffer's cells have the canonical form, whatever its bytes. -/
theorem bufferWf_bufferCells (f : Nat → Byte) : View.bufferWf (bufferCells f) = true := by
  simp only [View.bufferWf, bufferCells, Bool.and_eq_true]
  refine ⟨rising_filterMap f _ List.pairwise_lt_range, ?_⟩
  simp only [List.all_eq_true, List.mem_filterMap, List.mem_range]
  rintro ⟨a, v⟩ ⟨b, hb, he⟩
  split at he
  · cases he
  · cases he; simp_all

/-- A drawn frame buffer has the canonical form. -/
theorem bufferWf_raster (s : State) (p : Pass) : View.bufferWf (s.raster p) = true := bufferWf_bufferCells _

/-- The state right after reset has both memories in canonical form. -/
theorem reset_memories_wf : State.reset.MemoryInv := ⟨rfl, rfl⟩

end Sys2Proof.Machine
end

