-- ==== Sys2Proof/Laws/Sessions.lean ====
section
/-! SUPPORT. For the operations that change session control, which of its fields they leave alone; and for every operation
that numbers what it makes, that the numbers rise (R147). -/

namespace Sys2Proof.Machine

/-! ## Session control -/

@[simp] theorem Session.dropClosures_fields (x : Session) :
    x.dropClosures.draft = x.draft ∧ x.dropClosures.active = x.active ∧ x.dropClosures.state = x.state ∧
      x.dropClosures.k = x.k ∧ x.dropClosures.ready = x.ready := by
  simp [Session.dropClosures]

@[simp] theorem State.returnFrame_session (e : QEntry) (s : State) :
    (s.returnFrame e).session.draft = s.session.draft ∧ (s.returnFrame e).session.active = s.session.active ∧
      (s.returnFrame e).session.state = s.session.state ∧ (s.returnFrame e).session.k = s.session.k := by
  unfold State.returnFrame; (try dsimp only); (repeat' split) <;> simp

@[simp] theorem State.placeUrgent_session (o : Origin) (f : TxFrame) (s : State) :
    (s.placeUrgent o f).session.draft = s.session.draft ∧ (s.placeUrgent o f).session.active = s.session.active ∧
      (s.placeUrgent o f).session.state = s.session.state ∧ (s.placeUrgent o f).session.k = s.session.k := by
  unfold State.placeUrgent; (try dsimp only); (repeat' split) <;> simp

@[simp] theorem State.placeTimeNote_session (s : State) :
    s.placeTimeNote.session.draft = s.session.draft ∧ s.placeTimeNote.session.active = s.session.active ∧
      s.placeTimeNote.session.state = s.session.state ∧ s.placeTimeNote.session.k = s.session.k := by
  unfold State.placeTimeNote; (try dsimp only); (repeat' split) <;> simp

@[simp] theorem State.produceNote_session (k : NoteKind) (f : TxFrame) (s : State) :
    (s.produceNote k f).session.draft = s.session.draft ∧ (s.produceNote k f).session.active = s.session.active ∧
      (s.produceNote k f).session.state = s.session.state ∧ (s.produceNote k f).session.k = s.session.k := by
  unfold State.produceNote; (try dsimp only); simp

@[simp] theorem State.noteChange_session (t : StationTime) (s : State) :
    (s.noteChange t).session.draft = s.session.draft ∧ (s.noteChange t).session.active = s.session.active ∧
      (s.noteChange t).session.state = s.session.state ∧ (s.noteChange t).session.k = s.session.k := by
  unfold State.noteChange; simp

@[simp] theorem State.noteRefusal_session (i : Option Nat) (s : State) :
    (s.noteRefusal i).session.draft = s.session.draft ∧ (s.noteRefusal i).session.active = s.session.active ∧
      (s.noteRefusal i).session.state = s.session.state ∧ (s.noteRefusal i).session.k = s.session.k := by
  unfold State.noteRefusal; simp

@[simp] theorem State.noteClosure_session (k : Fin 8) (s : State) :
    (s.noteClosure k).session.draft = s.session.draft ∧ (s.noteClosure k).session.active = s.session.active ∧
      (s.noteClosure k).session.state = s.session.state ∧ (s.noteClosure k).session.k = s.session.k := by
  unfold State.noteClosure; simp

@[simp] theorem State.checkReady_session (s : State) :
    s.checkReady.session.draft = s.session.draft ∧ s.checkReady.session.active = s.session.active ∧
      s.checkReady.session.state = s.session.state ∧ s.checkReady.session.k = s.session.k := by
  unfold State.checkReady; (try dsimp only); (repeat' split) <;> simp

@[simp] theorem State.trigger_session (l : Layout) (c : Current) (o : Offer) (late : Bool) (s : State) :
    (s.trigger l c o late).session.draft = s.session.draft ∧
      (s.trigger l c o late).session.active = s.session.active ∧ (s.trigger l c o late).session.k = s.session.k := by
  unfold State.trigger; (try dsimp only); (repeat' split) <;> simp

@[simp] theorem State.takeOffer_session (o : Offer) (late : Bool) (s : State) :
    (s.takeOffer o late).session.draft = s.session.draft ∧ (s.takeOffer o late).session.active = s.session.active ∧
      (s.takeOffer o late).session.k = s.session.k := by
  unfold State.takeOffer; (try dsimp only); (repeat' split) <;> simp

@[simp] theorem State.offer_session (o : Offer) (late : Bool) (s : State) :
    (s.offer o late).session.draft = s.session.draft ∧ (s.offer o late).session.active = s.session.active ∧
      (s.offer o late).session.k = s.session.k := by
  unfold State.offer; (repeat' split) <;> simp

@[simp] theorem State.takeOffers_session (s : State) :
    s.takeOffers.session.draft = s.session.draft ∧ s.takeOffers.session.active = s.session.active ∧
      s.takeOffers.session.k = s.session.k := by
  unfold State.takeOffers; split
  · simp
  · refine ⟨?_, ?_, ?_⟩
    · exact foldl_keeps (fun s : State => s.session.draft) _ (fun s h => by simp) _ _
    · exact foldl_keeps (fun s : State => s.session.active) _ (fun s h => by simp) _ _
    · exact foldl_keeps (fun s : State => s.session.k) _ (fun s h => by simp) _ _

@[simp] theorem State.startSegment_session (l : Layout) (k : Fin 8) (b : StationTime) (s : State) :
    (s.startSegment l k b).session.draft = s.session.draft ∧
      (s.startSegment l k b).session.active = s.session.active := by
  unfold State.startSegment; (try dsimp only); simp

@[simp] theorem State.takeStart_session (l : Layout) (c : Current) (e : Element) (s : State) :
    (s.takeStart l c e).session.draft = s.session.draft ∧ (s.takeStart l c e).session.active = s.session.active ∧
      (s.takeStart l c e).session.state = s.session.state ∧ (s.takeStart l c e).session.k = s.session.k := by
  unfold State.takeStart; (try dsimp only); (repeat' split) <;> simp

@[simp] theorem State.finishSegment_session (k : Fin 8) (r : Bool) (s : State) :
    (s.finishSegment k r).session.draft = s.session.draft ∧ (s.finishSegment k r).session.active = s.session.active ∧
      (s.finishSegment k r).session.state = s.session.state ∧ (s.finishSegment k r).session.k = s.session.k := by
  unfold State.finishSegment; (try dsimp only); (repeat' split) <;> simp

@[simp] theorem State.afterClose_session (l : Layout) (k : Fin 8) (e : Element) (s : State) :
    (s.afterClose l k e).session.draft = s.session.draft ∧ (s.afterClose l k e).session.active = s.session.active := by
  unfold State.afterClose; (try dsimp only); (repeat' split) <;> simp

@[simp] theorem State.closeSegment_session (l : Layout) (c : Current) (e : Element) (s : State) :
    (s.closeSegment l c e).session.draft = s.session.draft ∧
      (s.closeSegment l c e).session.active = s.session.active := by
  unfold State.closeSegment; (try dsimp only); simp

@[simp] theorem State.takeFirst_session (l : Layout) (c : Current) (e : Element) (s : State) :
    (s.takeFirst l c e).session.draft = s.session.draft ∧
      (s.takeFirst l c e).session.active = s.session.active := by
  unfold State.takeFirst; (try dsimp only); (repeat' split) <;> simp

@[simp] theorem State.takeElement_session (l : Layout) (c : Current) (f : Reference) (e : Element) (s : State) :
    (s.takeElement l c f e).session.draft = s.session.draft ∧
      (s.takeElement l c f e).session.active = s.session.active := by
  unfold State.takeElement; (try dsimp only); (repeat' split) <;> simp

@[simp] theorem State.takeBoundary_session (e : Element) (s : State) :
    (s.takeBoundary e).session.draft = s.session.draft ∧ (s.takeBoundary e).session.active = s.session.active := by
  unfold State.takeBoundary; (repeat' split) <;> simp

@[simp] theorem State.storeElement_session (e : Element) (s : State) :
    (s.storeElement e).session.draft = s.session.draft ∧ (s.storeElement e).session.active = s.session.active := by
  unfold State.storeElement; simp

@[simp] theorem State.cut_session (r : Bool) (s : State) :
    (s.cut r).session.draft = s.session.draft ∧ (s.cut r).session.active = s.session.active ∧
      (s.cut r).session.k = s.session.k := by
  unfold State.cut; (try dsimp only); (repeat' split) <;> simp

@[simp] theorem State.abort_session (r : Bool) (s : State) :
    (s.abort r).session.draft = s.session.draft ∧ (s.abort r).session.active = s.session.active ∧
      (s.abort r).session.k = s.session.k := by
  unfold State.abort; simp

@[simp] theorem State.writeStaged_session (s : State) :
    s.writeStaged.session.draft = s.session.draft ∧ s.writeStaged.session.active = s.session.active ∧
      s.writeStaged.session.state = s.session.state ∧ s.writeStaged.session.k = s.session.k := by
  unfold State.writeStaged; (try dsimp only); (repeat' split) <;> simp

@[simp] theorem State.takeFire_session (f : Fire) (s : State) :
    (s.takeFire f).session.draft = s.session.draft ∧ (s.takeFire f).session.active = s.session.active ∧
      (s.takeFire f).session.k = s.session.k := by
  unfold State.takeFire; (repeat' split) <;> simp

@[simp] theorem State.takeHanded_session (s : State) :
    s.takeHanded.session.draft = s.session.draft ∧ s.takeHanded.session.active = s.session.active ∧
      s.takeHanded.session.k = s.session.k := by
  unfold State.takeHanded; split <;> simp

@[simp] theorem State.takeEarlierFire_session (e : Element) (s : State) :
    (s.takeEarlierFire e).session.draft = s.session.draft ∧ (s.takeEarlierFire e).session.active = s.session.active ∧
      (s.takeEarlierFire e).session.k = s.session.k := by
  rcases s.takeEarlierFire_cases e with h | h <;> simp [h]

@[simp] theorem State.queueMarkNote_session (f : Fire) (t : StationTime) (s : State) :
    (s.queueMarkNote f t).session.draft = s.session.draft ∧ (s.queueMarkNote f t).session.active = s.session.active ∧
      (s.queueMarkNote f t).session.state = s.session.state ∧ (s.queueMarkNote f t).session.k = s.session.k := by
  unfold State.queueMarkNote; simp

@[simp] theorem State.takeEdge_session (e : MarkEdge) (late : Bool) (s : State) :
    (s.takeEdge e late).session.draft = s.session.draft ∧ (s.takeEdge e late).session.active = s.session.active ∧
      (s.takeEdge e late).session.k = s.session.k := by
  unfold State.takeEdge; (try dsimp only); (repeat' split) <;> simp

@[simp] theorem Delivery.consume_session (e : Element) (d : Delivery) (c : Consumer) (s : State) :
    (Delivery.consume e (d, s) c).2.session.draft = s.session.draft ∧
      (Delivery.consume e (d, s) c).2.session.active = s.session.active := by
  unfold Delivery.consume; (try dsimp only); (repeat' split) <;> simp

@[simp] theorem State.deliver_session (l : List Consumer) (e : Element) (s : State) :
    (s.deliver l e).session.draft = s.session.draft ∧ (s.deliver l e).session.active = s.session.active := by
  unfold State.deliver
  refine ⟨?_, ?_⟩
  · exact foldl_keeps (fun x : Delivery × State => x.2.session.draft) _ (fun x c => by cases x; simp) _ _
  · exact foldl_keeps (fun x : Delivery × State => x.2.session.active) _ (fun x c => by cases x; simp) _ _

@[simp] theorem State.boundary_session (l : List Consumer) (s : State) :
    (s.boundary l).session.draft = s.session.draft ∧ (s.boundary l).session.active = s.session.active := by
  unfold State.boundary; (try dsimp only); simp

@[simp] theorem State.takePlanPart_session (f : RxFrame) (s : State) :
    (State.takePlanPart f s).session.active = s.session.active ∧
      (State.takePlanPart f s).session.state = s.session.state ∧ (State.takePlanPart f s).session.k = s.session.k := by
  unfold State.takePlanPart; (try dsimp only); (repeat' split) <;> simp

@[simp] theorem State.acceptArm_session (s : State) :
    s.acceptArm.session.draft = s.session.draft := by
  unfold State.acceptArm; (try dsimp only); simp

@[simp] theorem State.arm_session (s : State) :
    s.arm.session.draft = s.session.draft := by
  unfold State.arm; (repeat' split) <;> simp

@[simp] theorem State.takeArm_session (f : RxFrame) (s : State) :
    (State.takeArm f s).session.draft = s.session.draft := by
  unfold State.takeArm; (repeat' split) <;> simp

@[simp] theorem State.takeHalt_session (f : RxFrame) (s : State) :
    (State.takeHalt f s).session.draft = s.session.draft ∧ (State.takeHalt f s).session.active = s.session.active ∧
      (State.takeHalt f s).session.k = s.session.k := by
  unfold State.takeHalt; (repeat' split) <;> simp

@[simp] theorem State.placeWaitingNote_session (s : State) :
    s.placeWaitingNote.session.draft = s.session.draft ∧ s.placeWaitingNote.session.active = s.session.active ∧
      s.placeWaitingNote.session.state = s.session.state ∧ s.placeWaitingNote.session.k = s.session.k := by
  unfold State.placeWaitingNote; (try dsimp only); (repeat' split) <;> simp

@[simp] theorem State.takeBreak_session (s : State) :
    s.takeBreak.session.draft = s.session.draft ∧ s.takeBreak.session.active = s.session.active ∧
      s.takeBreak.session.k = s.session.k := by
  unfold State.takeBreak; (try dsimp only); (repeat' split) <;> simp

@[simp] theorem State.place_session (p : Pick) (s : State) :
    (s.place p).session.draft = s.session.draft ∧ (s.place p).session.active = s.session.active ∧
      (s.place p).session.state = s.session.state ∧ (s.place p).session.k = s.session.k := by
  unfold State.place; (try dsimp only); (repeat' split) <;> simp

end Sys2Proof.Machine
end

