-- ==== Sys2Proof/Laws/Step.lean ====
section
/-! SUPPORT. What one step can be, what the receipt of a frame can do, and how an invariant is shown of every step. -/

namespace Sys2Proof.Machine

/-- What is picked is one of the commands picked from. -/
theorem pickDue_mem {n : Nat} {l : List Instr} {c : Instr} (h : pickDue n l = some c) : c ∈ l := by
  match l, h with
  | [_], h => cases h; simp
  | a :: b :: l, h =>
    simp only [pickDue, Option.some.injEq] at h
    subst h
    have hlt : Config.dueOrder n % ((b :: l).length + 1) < (a :: b :: l).length := Nat.mod_lt _ (by simp)
    rw [List.getD_eq_getElem?_getD, List.getElem?_eq_getElem hlt, Option.getD_some]
    exact List.getElem_mem hlt

/-- Nothing is picked only where nothing is due. -/
theorem pickDue_none {n : Nat} {l : List Instr} (h : pickDue n l = none) : l = [] := by
  cases l with
  | nil => rfl
  | cons a l => cases l <;> cases h

/-- Everything a step can be: the command in front, a due command, or, where neither is there, what idling brings. -/
theorem step_cases {s : State} {o : Host.Outcome State Fault Refusal} (h : step s = o) :
    (∃ c rest, s.pending = c :: rest ∧ o = exec c { s with pending := rest }) ∨
      (s.pending = [] ∧ ∃ c ∈ s.dueList, o = exec c { s with choice := s.choice + 1 }) ∨
      (s.pending = [] ∧ s.dueList = [] ∧ o = .next s.idle) := by
  subst h
  unfold step
  split
  · rename_i c rest hp
    exact .inl ⟨c, rest, hp, rfl⟩
  · rename_i hp
    refine .inr ?_
    cases hd : pickDue s.choice s.dueList with
    | none => exact .inr ⟨hp, pickDue_none hd, by simp only [State.nextDue, hd, Option.map_none]⟩
    | some c => exact .inl ⟨hp, c, pickDue_mem hd, by simp only [State.nextDue, hd, Option.map_some]⟩

/-- Idling is the taking of a fire handed over, or a tick. -/
theorem State.idle_cases (s : State) : s.idle = s.takeHanded ∨ s.idle = s.tick := by
  unfold State.idle; split <;> simp

/-- An invariant that the commands, the taking of a fire and the tick keep, and that does not look at the queue or the open choices, is kept
by every step. -/
theorem keptByStep_of {Inv : State → Prop} (hq : ∀ s q, Inv s → Inv { s with pending := q })
    (hc : ∀ s n, Inv s → Inv { s with choice := n }) (he : ∀ c s t, Inv s → exec c s = .next t → Inv t)
    (hf : ∀ s, Inv s → Inv s.takeHanded) (ht : ∀ s, Inv s → Inv s.tick) : KeptByStep Inv := by
  intro s t hs h
  obtain ⟨c, rest, -, h'⟩ | ⟨-, c, -, h'⟩ | ⟨-, -, h'⟩ := step_cases h
  · exact he c _ _ (hq s rest hs) h'.symm
  · exact he c _ _ (hc s _ hs) h'.symm
  · cases h'
    obtain h | h := s.idle_cases
    · exact h ▸ hf s hs
    · exact h ▸ ht s hs

/-- What hearing a good frame and acting on it both leave alone, the receipt of a frame leaves alone. -/
theorem State.receive_keeps {α : Type} (p : State → α) (hg : ∀ f s, p (State.takeGood s f) = p s) {act : State → State}
    (ha : ∀ s, p (act s) = p s) (f : RxFrame) (s : State) : p (s.receive f act) = p s := by
  unfold State.receive
  repeat' split
  · rw [ha, hg]
  · rw [hg]
  · rfl

/-- What holds after hearing a good frame and after acting on it holds after the receipt of a frame. -/
theorem State.receive_induct {P : State → Prop} (hg : ∀ f s, P s → P (State.takeGood s f)) {act : State → State}
    (ha : ∀ s, P s → P (act s)) (f : RxFrame) (s : State) (h : P s) : P (s.receive f act) := by
  unfold State.receive
  repeat' split
  · exact ha _ (hg _ _ h)
  · exact hg _ _ h
  · exact h

/-- A station that can receive and that the frame is for takes it whole. -/
theorem State.receive_of_isFor {f : RxFrame} {s : State} (act : State → State) (hc : s.canReceive = true)
    (hf : s.isFor f = true) : s.receive f act = act (s.takeGood f) := by
  simp [State.receive, hc, hf]

/-- A fold keeps what each of its steps keeps. -/
theorem foldl_induct {σ α : Type} {P : σ → Prop} (f : σ → α → σ) (h : ∀ s a, P s → P (f s a)) (l : List α) (s : σ)
    (hs : P s) : P (l.foldl f s) := by
  induction l generalizing s with
  | nil => exact hs
  | cons a l ih => exact ih _ (h _ _ hs)

end Sys2Proof.Machine
end

