-- ==== Sys2Proof/Laws/Order.lean ====
section
/-! SUPPORT. Every operation that numbers what it makes takes a number not used before: the order numbers rise (R147), so
that waits can be compared and names stay unique. -/

namespace Sys2Proof.Machine

/-- A fold raises the order number when each of its steps does. -/
theorem foldl_order {α : Type} (f : State → α → State) (h : ∀ s a, s.order ≤ (f s a).order) (l : List α) (s : State) :
    s.order ≤ (l.foldl f s).order := by
  induction l generalizing s with
  | nil => exact Nat.le_refl _
  | cons a l ih => exact Nat.le_trans (h s a) (ih _)

theorem State.tickOrder_order (s : State) : s.order ≤ s.tickOrder.order := by
  unfold State.tickOrder; (try dsimp only);
    repeat first | exact Nat.le_refl _ | exact Nat.le_succ _ | simp

theorem State.enqueue_order (o : Origin) (f : TxFrame) (s : State) : s.order ≤ (s.enqueue o f).order := by
  unfold State.enqueue; (try dsimp only);
    repeat first | exact Nat.le_refl _ | exact Nat.le_succ _ | simp

theorem State.returnFrame_order (e : QEntry) (s : State) : s.order ≤ (s.returnFrame e).order := by
  unfold State.returnFrame; (try dsimp only); (repeat' split) <;>
    repeat first | exact Nat.le_refl _ | exact Nat.le_succ _ | refine Nat.le_trans ?_ (State.tickOrder_order ..)
                 | simp

theorem State.placeUrgent_order (o : Origin) (f : TxFrame) (s : State) : s.order ≤ (s.placeUrgent o f).order := by
  unfold State.placeUrgent; (try dsimp only); (repeat' split) <;>
    repeat first | exact Nat.le_refl _ | exact Nat.le_succ _ | refine Nat.le_trans ?_ (State.enqueue_order ..)
                 | refine Nat.le_trans ?_ (State.returnFrame_order ..) | simp

theorem State.placeTimeNote_order (s : State) : s.order ≤ s.placeTimeNote.order := by
  unfold State.placeTimeNote; (try dsimp only); (repeat' split) <;>
    repeat first | exact Nat.le_refl _ | exact Nat.le_succ _ | refine Nat.le_trans ?_ (State.placeUrgent_order ..)
                 | simp

theorem State.offerWord_order (q : QueueId) (w : Word) (s : State) : s.order ≤ (s.offerWord q w).order := by
  unfold State.offerWord; (try dsimp only); (repeat' split) <;>
    repeat first | exact Nat.le_refl _ | exact Nat.le_succ _ | simp

theorem State.routeTo_order (d : Dest) (w : Word) (s : State) : s.order ≤ (s.routeTo d w).order := by
  unfold State.routeTo; (try dsimp only); (repeat' split) <;>
    repeat first | exact Nat.le_refl _ | exact Nat.le_succ _ | refine Nat.le_trans ?_ (State.offerWord_order ..)
                 | simp

theorem State.filterWord_order (w : Word) (s : State) : s.order ≤ (s.filterWord w).order := by
  unfold State.filterWord; (try dsimp only); (repeat' split) <;>
    repeat first | exact Nat.le_refl _ | exact Nat.le_succ _ | refine Nat.le_trans ?_ (State.routeTo_order ..) | simp

theorem State.rollDue_order (a : Bool) (s : State) : s.order ≤ (s.rollDue a).order := by
  unfold State.rollDue; (try dsimp only); (repeat' split) <;>
    repeat first | exact Nat.le_refl _ | exact Nat.le_succ _ | simp

theorem State.offerOwn_order (n : Fin 16) (s : State) : s.order ≤ (s.offerOwn n).order := by
  unfold State.offerOwn; (try dsimp only); (repeat' split) <;>
    repeat first | exact Nat.le_refl _ | exact Nat.le_succ _ | simp

theorem State.placeFreed_order (s : State) : s.order ≤ s.placeFreed.order := by
  exact foldl_order _ (fun s n => State.offerOwn_order n s) _ s

theorem State.makeAsk_order (n : Fin 16) (f : Fetch) (a : TxFrame) (s : State) :
    s.order ≤ (s.makeAsk n f a).order := by
  unfold State.makeAsk; (try dsimp only); (repeat' split) <;>
    repeat first | exact Nat.le_refl _ | exact Nat.le_succ _ | simp

theorem State.startLane_order (p : Pass) (z : StationTime) (n : Fin 16) (s : State) :
    s.order ≤ (State.startLane p z s n).order := by
  unfold State.startLane; (try dsimp only); (repeat' split) <;>
    repeat first | exact Nat.le_refl _ | exact Nat.le_succ _ | refine Nat.le_trans ?_ (State.offerOwn_order ..)
                 | refine Nat.le_trans ?_ (State.makeAsk_order ..) | simp

theorem State.startRender_order (s : State) : s.order ≤ s.startRender.order := by
  unfold State.startRender; (try dsimp only); (repeat' split) <;> simp <;>
    repeat first | exact Nat.le_refl _ | exact Nat.le_succ _
                 | refine Nat.le_trans ?_ (foldl_order _ (fun s n => State.startLane_order _ _ n s) _ _) | simp

theorem State.writeView_order (i : Byte) (p : List Byte) (s : State) : s.order ≤ (State.writeView i p s).order := by
  unfold State.writeView; (try dsimp only); (repeat' split) <;>
    repeat first | exact Nat.le_refl _ | exact Nat.le_succ _ | refine Nat.le_trans ?_ (State.startRender_order ..)
                 | simp

theorem State.takeViewPart_order (f : RxFrame) (s : State) : s.order ≤ (State.takeViewPart f s).order := by
  unfold State.takeViewPart; (try dsimp only); (repeat' split) <;>
    repeat first | exact Nat.le_refl _ | exact Nat.le_succ _ | refine Nat.le_trans ?_ (State.writeView_order ..)
                 | simp

theorem State.takeStatusNote_order (f : RxFrame) (s : State) : s.order ≤ (State.takeStatusNote f s).order := by
  unfold State.takeStatusNote; (repeat' split) <;>
    repeat first | exact Nat.le_refl _ | exact Nat.le_succ _ | refine Nat.le_trans ?_ (State.startRender_order ..)
                 | simp

theorem State.expireDeadline_order (n : Fin 16) (s : State) : s.order ≤ (s.expireDeadline n).order := by
  unfold State.expireDeadline; (try dsimp only); (repeat' split) <;>
    repeat first | exact Nat.le_refl _ | exact Nat.le_succ _ | simp

theorem State.reask_order (n : Fin 16) (s : State) : s.order ≤ (s.reask n).order := by
  unfold State.reask; (repeat' split) <;>
    repeat first | exact Nat.le_refl _ | exact Nat.le_succ _ | refine Nat.le_trans ?_ (State.makeAsk_order ..) | simp

theorem State.produceNote_order (k : NoteKind) (f : TxFrame) (s : State) : s.order ≤ (s.produceNote k f).order := by
  unfold State.produceNote; (try dsimp only);
    repeat first | exact Nat.le_refl _ | exact Nat.le_succ _ | simp

theorem State.noteChange_order (t : StationTime) (s : State) : s.order ≤ (s.noteChange t).order := by
  unfold State.noteChange;
    repeat first | exact Nat.le_refl _ | exact Nat.le_succ _ | refine Nat.le_trans ?_ (State.produceNote_order ..)
                 | simp

theorem State.noteRefusal_order (i : Option Nat) (s : State) : s.order ≤ (s.noteRefusal i).order := by
  unfold State.noteRefusal;
    repeat first | exact Nat.le_refl _ | exact Nat.le_succ _ | refine Nat.le_trans ?_ (State.produceNote_order ..)
                 | simp

theorem State.noteClosure_order (k : Fin 8) (s : State) : s.order ≤ (s.noteClosure k).order := by
  unfold State.noteClosure;
    repeat first | exact Nat.le_refl _ | exact Nat.le_succ _ | refine Nat.le_trans ?_ (State.produceNote_order ..)
                 | simp

theorem State.trigger_order (l : Layout) (c : Current) (o : Offer) (late : Bool) (s : State) :
    s.order ≤ (s.trigger l c o late).order := by
  unfold State.trigger; (try dsimp only); (repeat' split) <;>
    repeat first | exact Nat.le_refl _ | exact Nat.le_succ _ | refine Nat.le_trans ?_ (State.noteChange_order ..)
                 | simp

theorem State.takeOffer_order (o : Offer) (late : Bool) (s : State) : s.order ≤ (s.takeOffer o late).order := by
  unfold State.takeOffer; (try dsimp only); (repeat' split) <;>
    repeat first | exact Nat.le_refl _ | exact Nat.le_succ _ | refine Nat.le_trans ?_ (State.trigger_order ..) | simp

theorem State.offer_order (o : Offer) (late : Bool) (s : State) : s.order ≤ (s.offer o late).order := by
  unfold State.offer; (repeat' split) <;>
    repeat first | exact Nat.le_refl _ | exact Nat.le_succ _ | refine Nat.le_trans ?_ (State.takeOffer_order ..) | simp

theorem State.takeOffers_order (s : State) : s.order ≤ s.takeOffers.order := by
  unfold State.takeOffers; split
  · exact Nat.le_refl _
  · exact foldl_order _ (fun s (h : HeldOffer) => State.takeOffer_order h.offer h.late s) _
      { s with store := { s.store with offers := [] } }

theorem State.finishSegment_order (k : Fin 8) (r : Bool) (s : State) : s.order ≤ (s.finishSegment k r).order := by
  unfold State.finishSegment; (try dsimp only); (repeat' split) <;>
    repeat first | exact Nat.le_refl _ | exact Nat.le_succ _ | refine Nat.le_trans ?_ (State.startRender_order ..)
                 | refine Nat.le_trans ?_ (State.noteClosure_order ..) | simp

theorem State.afterClose_order (l : Layout) (k : Fin 8) (e : Element) (s : State) :
    s.order ≤ (s.afterClose l k e).order := by
  unfold State.afterClose; (try dsimp only); (repeat' split) <;>
    repeat first | exact Nat.le_refl _ | exact Nat.le_succ _ | refine Nat.le_trans ?_ (State.noteChange_order ..)
                 | simp

theorem State.closeSegment_order (l : Layout) (c : Current) (e : Element) (s : State) :
    s.order ≤ (s.closeSegment l c e).order := by
  unfold State.closeSegment; (try dsimp only);
    repeat first | exact Nat.le_refl _ | exact Nat.le_succ _ | refine Nat.le_trans ?_ (State.finishSegment_order ..)
                 | refine Nat.le_trans ?_ (State.afterClose_order ..) | simp

theorem State.takeFirst_order (l : Layout) (c : Current) (e : Element) (s : State) :
    s.order ≤ (s.takeFirst l c e).order := by
  unfold State.takeFirst; (try dsimp only); (repeat' split) <;>
    repeat first | exact Nat.le_refl _ | exact Nat.le_succ _ | refine Nat.le_trans ?_ (State.closeSegment_order ..)
                 | simp

theorem State.takeElement_order (l : Layout) (c : Current) (f : Reference) (e : Element) (s : State) :
    s.order ≤ (s.takeElement l c f e).order := by
  unfold State.takeElement; (try dsimp only); (repeat' split) <;>
    repeat first | exact Nat.le_refl _ | exact Nat.le_succ _ | refine Nat.le_trans ?_ (State.closeSegment_order ..)
                 | simp

theorem State.takeBoundary_order (e : Element) (s : State) : s.order ≤ (s.takeBoundary e).order := by
  unfold State.takeBoundary; repeat' split
  · exact State.takeElement_order ..
  · exact State.takeFirst_order ..
  · exact Nat.le_refl _
  · exact Nat.le_refl _

theorem State.storeElement_order (e : Element) (s : State) : s.order ≤ (s.storeElement e).order :=
  Nat.le_trans (State.takeBoundary_order e s) (State.takeOffers_order _)

theorem State.cut_order (r : Bool) (s : State) : s.order ≤ (s.cut r).order := by
  unfold State.cut; (try dsimp only); (repeat' split) <;>
    repeat first | exact Nat.le_refl _ | exact Nat.le_succ _ | refine Nat.le_trans ?_ (State.noteChange_order ..)
                 | refine Nat.le_trans ?_ (State.finishSegment_order ..) | simp

theorem State.abort_order (r : Bool) (s : State) : s.order ≤ (s.abort r).order :=
  Nat.le_trans (State.takeOffers_order s) (State.cut_order r _)

theorem State.writeStaged_order (s : State) : s.order ≤ s.writeStaged.order := by
  unfold State.writeStaged; (try dsimp only); (repeat' split) <;>
    repeat first | exact Nat.le_refl _ | exact Nat.le_succ _ | refine Nat.le_trans ?_ (State.finishSegment_order ..)
                 | simp

theorem State.takeFire_order (f : Fire) (s : State) : s.order ≤ (s.takeFire f).order := by
  unfold State.takeFire; (repeat' split) <;>
    repeat first | exact Nat.le_refl _ | exact Nat.le_succ _ | refine Nat.le_trans ?_ (State.offer_order ..) | simp

theorem State.takeHanded_order (s : State) : s.order ≤ s.takeHanded.order := by
  unfold State.takeHanded; split
  · rename_i f _
    exact State.takeFire_order f { s with mark := { s.mark with handed := none } }
  · exact Nat.le_refl _

theorem State.takeEarlierFire_order (e : Element) (s : State) : s.order ≤ (s.takeEarlierFire e).order := by
  rcases s.takeEarlierFire_cases e with h | h <;> simp [h, State.takeHanded_order]

theorem State.queueMarkNote_order (f : Fire) (t : StationTime) (s : State) :
    s.order ≤ (s.queueMarkNote f t).order := by
  unfold State.queueMarkNote;
    repeat first | exact Nat.le_refl _ | exact Nat.le_succ _ | refine Nat.le_trans ?_ (State.placeUrgent_order ..)
                 | simp

theorem State.takeEdge_order (e : MarkEdge) (late : Bool) (s : State) : s.order ≤ (s.takeEdge e late).order := by
  unfold State.takeEdge; (try dsimp only); (repeat' split) <;>
    repeat first | exact Nat.le_refl _ | exact Nat.le_succ _ | refine Nat.le_trans ?_ (State.offer_order ..)
                 | refine Nat.le_trans ?_ (State.queueMarkNote_order ..) | simp

theorem State.takeWord_order (w : Word) (b : StationTime) (s : State) : s.order ≤ (s.takeWord w b).order := by
  unfold State.takeWord; (repeat' split) <;>
    repeat first | exact Nat.le_refl _ | exact Nat.le_succ _ | refine Nat.le_trans ?_ (State.filterWord_order ..) | simp

theorem Delivery.takeNext_order (d : Delivery) (u : Fin 4) (ws : List Word) (b : StationTime) (s : State) :
    s.order ≤ (d.takeNext s u ws b).2.order := by
  unfold Delivery.takeNext; (repeat' split) <;>
    repeat first | exact Nat.le_refl _ | exact Nat.le_succ _ | refine Nat.le_trans ?_ (State.takeWord_order ..) | simp

theorem Delivery.consume_order (e : Element) (d : Delivery) (c : Consumer) (s : State) :
    s.order ≤ (Delivery.consume e (d, s) c).2.order := by
  unfold Delivery.consume; (try dsimp only); (repeat' split) <;>
    repeat first | exact Nat.le_refl _ | exact Nat.le_succ _ | refine Nat.le_trans ?_ (State.storeElement_order ..)
                 | refine Nat.le_trans ?_ (State.takeHanded_order ..)
                 | refine Nat.le_trans ?_ (State.takeEarlierFire_order ..)
                 | refine Nat.le_trans ?_ (Delivery.takeNext_order ..)
                 | simp

theorem State.deliver_order (l : List Consumer) (e : Element) (s : State) : s.order ≤ (s.deliver l e).order := by
  unfold State.deliver
  exact foldl_induct (P := fun x : Delivery × State => s.order ≤ x.2.order) _
    (fun x c h => Nat.le_trans h (by obtain ⟨d, s⟩ := x; exact Delivery.consume_order e d c s)) _ _ (Nat.le_refl _)

theorem State.boundary_order (l : List Consumer) (s : State) : s.order ≤ (s.boundary l).order := by
  unfold State.boundary; (try dsimp only);
    repeat first | exact Nat.le_refl _ | exact Nat.le_succ _ | refine Nat.le_trans ?_ (State.deliver_order ..) | simp

theorem State.addRefusal_order (a : Station) (t : Byte) (b : Bool) (f : TxFrame) (s : State) :
    s.order ≤ (s.addRefusal a t b f).order := by
  unfold State.addRefusal; (try dsimp only);
    repeat first | exact Nat.le_refl _ | exact Nat.le_succ _ | simp

theorem State.refuse_order (e : AskEntry) (b : Bool) (o : OutcomeCode) (s : State) :
    s.order ≤ (s.refuse e b o).order := by
  unfold State.refuse;
    repeat first | exact Nat.le_refl _ | exact Nat.le_succ _ | refine Nat.le_trans ?_ (State.addRefusal_order ..)
                 | simp

theorem State.appendEntry_order (e : AskEntry) (s : State) : s.order ≤ (s.appendEntry e).order := by
  unfold State.appendEntry; (try dsimp only);
    repeat first | exact Nat.le_refl _ | exact Nat.le_succ _ | simp

theorem State.overwriteEntry_order (old e : AskEntry) (s : State) : s.order ≤ (s.overwriteEntry old e).order := by
  unfold State.overwriteEntry; (try dsimp only);
    repeat first | exact Nat.le_refl _ | exact Nat.le_succ _ | simp

theorem State.takeAsk_order (w : Bool) (f : RxFrame) (s : State) : s.order ≤ (State.takeAsk w f s).order := by
  unfold State.takeAsk; (try dsimp only); (repeat' split) <;>
    repeat first | exact Nat.le_refl _ | exact Nat.le_succ _ | refine Nat.le_trans ?_ (State.refuse_order ..)
                 | refine Nat.le_trans ?_ (State.appendEntry_order ..) | refine Nat.le_trans ?_ (State.overwriteEntry_order ..)
                 | simp

theorem State.takeStatusAsk_order (f : RxFrame) (s : State) : s.order ≤ (State.takeStatusAsk f s).order := by
  unfold State.takeStatusAsk; (try dsimp only); (repeat' split) <;>
    repeat first | exact Nat.le_refl _ | exact Nat.le_succ _ | simp

theorem State.takeStop_order (f : RxFrame) (s : State) : s.order ≤ (State.takeStop f s).order := by
  unfold State.takeStop; (try dsimp only); (repeat' split) <;>
    repeat first | exact Nat.le_refl _ | exact Nat.le_succ _ | refine Nat.le_trans ?_ (State.placeFreed_order ..)
                 | simp

theorem State.handOwn_order (e : AskEntry) (l : List Part) (s : State) : s.order ≤ (s.handOwn e l).order := by
  have h : s.order ≤ (l.foldl (fun s p => s.takePart s.bus.own p) s).order :=
    foldl_order _ (fun s p => by simp) _ _
  unfold State.handOwn
  refine Nat.le_trans ?_ (State.placeFreed_order _)
  simpa using h

theorem State.serve_order (e : AskEntry) (l : List Part) (s : State) : s.order ≤ (s.serve e l).order := by
  unfold State.serve; (try dsimp only);
    repeat first | exact Nat.le_refl _ | exact Nat.le_succ _ | simp

theorem State.startService_order (e : AskEntry) (s : State) : s.order ≤ (s.startService e).order := by
  unfold State.startService; repeat' split
  · exact State.handOwn_order ..
  · refine Nat.le_trans ?_ (State.placeFreed_order _)
    simpa using State.refuse_order e false _ s
  · exact State.handOwn_order ..
  · exact State.serve_order ..

theorem State.partLost_order (i : Nat) (s : State) : s.order ≤ (s.partLost i).order := by
  unfold State.partLost; (repeat' split) <;>
    repeat first | exact Nat.le_refl _ | exact Nat.le_succ _ | refine Nat.le_trans ?_ (State.placeFreed_order ..)
                 | simp

theorem State.endGone_order (e : AskEntry) (s : State) : s.order ≤ (s.endGone e).order := by
  unfold State.endGone; (try dsimp only); (repeat' split) <;>
    repeat first | exact Nat.le_refl _ | exact Nat.le_succ _ | refine Nat.le_trans ?_ (State.addRefusal_order ..)
                 | simp

theorem State.asksGone_order (s : State) : s.order ≤ s.asksGone.order := by
  unfold State.asksGone; (try dsimp only); simp <;>
    repeat first | exact Nat.le_refl _ | exact Nat.le_succ _
                 | refine Nat.le_trans ?_ (foldl_order _ (fun s a => State.endGone_order a s) _ _)
                 | refine Nat.le_trans ?_ (State.placeFreed_order ..) | simp

theorem State.askerAbsent_order (p : Station) (s : State) : s.order ≤ (s.askerAbsent p).order := by
  unfold State.askerAbsent; (try dsimp only);
    repeat first | exact Nat.le_refl _ | exact Nat.le_succ _ | refine Nat.le_trans ?_ (State.placeFreed_order ..)
                 | simp

theorem State.acceptArm_order (s : State) : s.order ≤ s.acceptArm.order := by
  unfold State.acceptArm; (try dsimp only);
    repeat first | exact Nat.le_refl _ | exact Nat.le_succ _ | refine Nat.le_trans ?_ (State.noteChange_order ..)
                 | refine Nat.le_trans ?_ (State.asksGone_order ..) | simp

theorem State.arm_order (s : State) : s.order ≤ s.arm.order := by
  unfold State.arm; (repeat' split) <;>
    repeat first | exact Nat.le_refl _ | exact Nat.le_succ _ | refine Nat.le_trans ?_ (State.noteRefusal_order ..)
                 | refine Nat.le_trans ?_ (State.acceptArm_order ..) | simp

theorem State.takeArm_order (f : RxFrame) (s : State) : s.order ≤ (State.takeArm f s).order := by
  unfold State.takeArm; (repeat' split) <;>
    repeat first | exact Nat.le_refl _ | exact Nat.le_succ _ | refine Nat.le_trans ?_ (State.arm_order ..) | simp

theorem State.takeHalt_order (f : RxFrame) (s : State) : s.order ≤ (State.takeHalt f s).order := by
  unfold State.takeHalt; (repeat' split) <;>
    repeat first | exact Nat.le_refl _ | exact Nat.le_succ _ | refine Nat.le_trans ?_ (State.abort_order ..) | simp

theorem State.reportLost_order (e : QEntry) (s : State) : s.order ≤ (s.reportLost e).order := by
  unfold State.reportLost; (repeat' split) <;>
    repeat first | exact Nat.le_refl _ | exact Nat.le_succ _ | refine Nat.le_trans ?_ (State.partLost_order ..) | simp

theorem State.placeWaitingNote_order (s : State) : s.order ≤ s.placeWaitingNote.order := by
  unfold State.placeWaitingNote; (try dsimp only); (repeat' split) <;>
    repeat first | exact Nat.le_refl _ | exact Nat.le_succ _ | refine Nat.le_trans ?_ (State.placeTimeNote_order ..)
                 | simp

theorem State.enterSilent_order (l : LinkState) (s : State) : s.order ≤ (s.enterSilent l).order := by
  unfold State.enterSilent; (try dsimp only); (repeat' split) <;> simp <;>
    repeat first | exact Nat.le_refl _ | exact Nat.le_succ _
                 | refine Nat.le_trans ?_ (foldl_order _ (fun s a => State.reportLost_order a s) _ _)
                 | refine Nat.le_trans ?_ (State.rollDue_order ..) | simp

theorem State.rejoinBus_order (s : State) : s.order ≤ s.rejoinBus.order := by
  unfold State.rejoinBus; (try dsimp only);
    repeat first | exact Nat.le_refl _ | exact Nat.le_succ _ | refine Nat.le_trans ?_ (State.rollDue_order ..) | simp

theorem State.setScore_order (n : Nat) (s : State) : s.order ≤ (s.setScore n).order := by
  unfold State.setScore; (try dsimp only); (repeat' split) <;>
    repeat first | exact Nat.le_refl _ | exact Nat.le_succ _ | refine Nat.le_trans ?_ (State.enterSilent_order ..)
                 | simp

theorem State.takeRxError_order (s : State) : s.order ≤ s.takeRxError.order := by
  unfold State.takeRxError; (try dsimp only); (repeat' split) <;>
    repeat first | exact Nat.le_refl _ | exact Nat.le_succ _ | refine Nat.le_trans ?_ (State.setScore_order ..) | simp

theorem State.takeBreak_order (s : State) : s.order ≤ s.takeBreak.order := by
  unfold State.takeBreak; (try dsimp only); (repeat' split) <;>
    repeat first | exact Nat.le_refl _ | exact Nat.le_succ _ | refine Nat.le_trans ?_ (State.abort_order ..)
                 | refine Nat.le_trans ?_ (State.placeWaitingNote_order ..) | refine Nat.le_trans ?_ (State.rejoinBus_order ..)
                 | simp

theorem State.duplicateFound_order (s : State) : s.order ≤ s.duplicateFound.order := by
  unfold State.duplicateFound; (repeat' split) <;>
    repeat first | exact Nat.le_refl _ | exact Nat.le_succ _ | refine Nat.le_trans ?_ (State.enterSilent_order ..)
                 | simp

theorem State.takeRollCall_order (w : Bool) (f : RxFrame) (s : State) :
    s.order ≤ (State.takeRollCall w f s).order := by
  unfold State.takeRollCall; (try dsimp only); (repeat' split) <;>
    repeat first | exact Nat.le_refl _ | exact Nat.le_succ _ | refine Nat.le_trans ?_ (State.rollDue_order ..)
                 | refine Nat.le_trans ?_ (State.duplicateFound_order ..) | simp

theorem State.enqueueHeld_order (h : Held) (s : State) : s.order ≤ (s.enqueueHeld h).order := by
  unfold State.enqueueHeld;
    repeat first | exact Nat.le_refl _ | exact Nat.le_succ _ | refine Nat.le_trans ?_ (State.enqueue_order ..) | simp

theorem State.placePart_order (e : AskEntry) (p : Part) (s : State) : s.order ≤ (s.placePart e p).order := by
  unfold State.placePart; dsimp only; split
  · refine Nat.le_trans ?_ (State.placeFreed_order _)
    simpa using State.enqueue_order (.askPart e.id) (p.frame e.asker) s
  · exact Nat.le_succ_of_le (State.enqueue_order (.askPart e.id) (p.frame e.asker) s)

theorem State.placeStatus_order (r : StatusReply) (s : State) : s.order ≤ (s.placeStatus r).order := by
  unfold State.placeStatus; (try dsimp only); (repeat' split) <;>
    repeat first | exact Nat.le_refl _ | exact Nat.le_succ _ | refine Nat.le_trans ?_ (State.enqueue_order ..) | simp

theorem State.place_order (p : Pick) (s : State) : s.order ≤ (s.place p).order := by
  unfold State.place; (try dsimp only); (repeat' split) <;>
    repeat first | exact Nat.le_refl _ | exact Nat.le_succ _ | refine Nat.le_trans ?_ (State.enqueue_order ..)
                 | refine Nat.le_trans ?_ (State.rollDue_order ..) | refine Nat.le_trans ?_ (State.enqueueHeld_order ..)
                 | refine Nat.le_trans ?_ (State.placePart_order ..) | refine Nat.le_trans ?_ (State.placeStatus_order ..)
                 | simp

end Sys2Proof.Machine
end

