-- ==== Sys2Proof/Laws/State.lean ====
section
/-! SUPPORT. The small lemmas of the state: a table entry after an update, a record of a peer, a header, a queue or a
lane after the one operation that sets it, and the level of a channel in a set after a change. -/

namespace Sys2Proof.Machine

/-! ## Tables -/

@[simp] theorem vget_vset_same {α : Type} {n : Nat} (v : Vector α n) (i : Fin n) (a : α) : vget (vset v i a) i = a := by
  simp [vget, vset]

theorem vget_vset_other {α : Type} {n : Nat} (v : Vector α n) {i j : Fin n} (a : α) (h : j ≠ i) :
    vget (vset v i a) j = vget v j := by
  have h' : i.val ≠ j.val := fun e => h (Fin.ext e.symm)
  simp [vget, vset, Vector.getElem_set_ne _ _ h']

theorem vget_vset {α : Type} {n : Nat} (v : Vector α n) (i j : Fin n) (a : α) :
    vget (vset v i a) j = if j = i then a else vget v j := by
  split
  · rename_i h; subst h; simp
  · rename_i h; exact vget_vset_other v a h

@[simp] theorem vget_vmod {α : Type} {n : Nat} (v : Vector α n) (i j : Fin n) (f : α → α) :
    vget (vmod v i f) j = if j = i then f (vget v i) else vget v j := by
  simp [vmod, vget_vset]

@[simp] theorem vget_replicate {α : Type} {n : Nat} (a : α) (i : Fin n) : vget (Vector.replicate n a) i = a := by
  simp [vget]

@[simp] theorem vget_map {α β : Type} {n : Nat} (v : Vector α n) (f : α → β) (i : Fin n) :
    vget (v.map f) i = f (vget v i) := by
  simp [vget]

@[simp] theorem vget_ofFn {α : Type} {n : Nat} (f : Fin n → α) (i : Fin n) : vget (Vector.ofFn f) i = f i := by
  simp [vget]

/-! ## The one operation that sets an entry -/

@[simp] theorem State.peer_setPeer_same (s : State) (i : Station) (p : Peer) : (s.setPeer i p).peer i = p := by
  simp [State.peer, State.setPeer]

theorem State.peer_setPeer_other (s : State) {i j : Station} (p : Peer) (h : j ≠ i) :
    (s.setPeer i p).peer j = s.peer j := by
  simp [State.peer, State.setPeer, vget_vset_other _ _ h]

@[simp] theorem State.header_setHeader_same (s : State) (k : Fin 8) (h : SegHeader) : (s.setHeader k h).header k = h := by
  simp [State.header, State.setHeader]

theorem State.header_setHeader_other (s : State) {i k : Fin 8} (x : SegHeader) (h : i ≠ k) :
    (s.setHeader k x).header i = s.header i := by
  simp [State.header, State.setHeader, vget_vset_other _ _ h]

/-- Two states with the same headers have the same header of each segment. -/
theorem State.header_congr {s t : State} (h : t.store.headers = s.store.headers) (k : Fin 8) :
    t.header k = s.header k := by
  simp [State.header, h]

/-- Two states with the same peer table have the same record of each peer. -/
theorem State.peer_congr {s t : State} (h : t.peers.peers = s.peers.peers) (p : Station) : t.peer p = s.peer p := by
  simp [State.peer, h]

@[simp] theorem Words.queue_setQueue_same (w : Words) (q : QueueId) (x : WQueue) : (w.setQueue q x).queue q = x := by
  cases q <;> rfl

theorem Words.queue_setQueue_other (w : Words) {q r : QueueId} (x : WQueue) (h : r ≠ q) :
    (w.setQueue q x).queue r = w.queue r := by
  cases q <;> cases r <;> first | rfl | exact absurd rfl h

@[simp] theorem State.fetch_setFetch_same (s : State) (n : Fin 16) (f : Fetch) :
    vget (s.setFetch n f).view.fetch n = some f := by
  simp [State.setFetch]

theorem State.fetch_setFetch_other (s : State) {n m : Fin 16} (f : Fetch) (h : m ≠ n) :
    vget (s.setFetch n f).view.fetch m = vget s.view.fetch m := by
  simp [State.setFetch, vget_vset_other _ _ h]

/-! ## Channel sets -/

theorem chanBit_single (c d : Chan) : chanBit (single c) d = decide (c = d) := by
  revert c d; decide

theorem chanBit_or (a b : ChanSet) (c : Chan) : chanBit (a ||| b) c = (chanBit a c || chanBit b c) := by
  simp [chanBit]

theorem chanBit_xor (a b : ChanSet) (c : Chan) : chanBit (a ^^^ b) c = (chanBit a c ^^ chanBit b c) := by
  simp [chanBit]

@[simp] theorem chanBit_zero (c : Chan) : chanBit 0 c = false := by simp [chanBit]

/-- A channel's entry after one channel's entry has been set. -/
theorem chanBit_setChan (s : ChanSet) (c d : Chan) (v : Bool) :
    chanBit (setChan s c v) d = if d = c then v else chanBit s d := by
  have hs := chanBit_single c d
  unfold setChan chanBit at *
  by_cases h : d = c
  · subst h
    cases v <;> simp_all
  · have h' : ¬c = d := fun e => h e.symm
    cases v <;> simp_all [d.isLt]

theorem chanBit_foldl (f : Chan → Bool) (l : List Chan) (s : ChanSet) (d : Chan) :
    chanBit (l.foldl (fun s c => if f c then s ||| single c else s) s) d = (chanBit s d || (l.contains d && f d)) := by
  induction l generalizing s with
  | nil => simp
  | cons c l ih =>
    rw [List.foldl_cons, ih]
    by_cases h : d = c
    · subst h
      cases hf : f d <;> simp [chanBit_or, chanBit_single]
    · have h' : ¬c = d := fun e => h e.symm
      cases hf : f c <;> simp [chanBit_or, chanBit_single, h, h']

/-- The set made from a test holds the channels that pass it. -/
@[simp] theorem chanBit_chanSet (f : Chan → Bool) (d : Chan) : chanBit (chanSet f) d = f d := by
  unfold chanSet
  rw [chanBit_foldl]
  have h : (List.finRange 16).contains d = true := by simp
  rw [h]
  simp [chanBit]

/-! ## The transmit queue -/

@[simp] theorem length_insertFrame (e : QEntry) (l : List QEntry) : (insertFrame e l).length = l.length + 1 := by
  induction l with
  | nil => rfl
  | cons x l ih => unfold insertFrame; split <;> simp [ih]

@[simp] theorem mem_insertFrame {e x : QEntry} {l : List QEntry} : x ∈ insertFrame e l ↔ x = e ∨ x ∈ l := by
  induction l with
  | nil => simp [insertFrame]
  | cons y l ih =>
    unfold insertFrame
    split
    · simp [ih, or_left_comm]
    · simp

/-- All that placing a frame does: it takes its place in the queue's order and a number of its own (R146). -/
theorem State.enqueue_spec (s : State) (o : Origin) (f : TxFrame) :
    (s.enqueue o f).bus.queue = insertFrame { id := s.order, origin := o, frame := f } s.bus.queue ∧
      (s.enqueue o f).order = s.order + 1 := ⟨rfl, rfl⟩

/-- All that withdrawing frames does: they leave the queue, the frame on the wire excepted (R149). -/
theorem State.mem_withdraw {s : State} {p : QEntry → Bool} {e : QEntry} :
    e ∈ (s.withdraw p).bus.queue ↔ e ∈ s.bus.queue ∧ (s.bus.isOnWire e = true ∨ p e = false) := by
  simp [State.withdraw]

/-- A frame that is displaced is in the queue, not on the wire, and of a higher kind (R148). -/
theorem Bus.displaceable_spec {b : Bus} {kind : BitVec 4} {e : QEntry} (h : b.displaceable kind = some e) :
    e ∈ b.queue ∧ kind < e.frame.kind ∧ b.isOnWire e = false := by
  have := List.mem_of_getLast? h
  simpa using this

/-! ## Clamping -/

theorem le_clamp {lo hi n : Nat} (h : lo ≤ hi) : lo ≤ clamp lo hi n := by unfold clamp; omega

theorem clamp_le (lo hi n : Nat) : clamp lo hi n ≤ hi := by unfold clamp; omega

theorem clamp_eq {lo hi n : Nat} (h1 : lo ≤ n) (h2 : n ≤ hi) : clamp lo hi n = n := by unfold clamp; omega

end Sys2Proof.Machine
end

