-- ==== Sys2Proof/Laws/Operations.lean ====
section
/-! SUPPORT. What the shared operations can do, said once for each: a proof about a command cites these and does not
unfold the operation. -/

namespace Sys2Proof.Machine

/-! ## Receiving (R143) -/

/-- A frame that reaches its block: the block acts on the state after the good receipt. -/
theorem State.receive_takes {s : State} {f : RxFrame} (h : s.Takes f) (act : State → State) :
    s.receive f act = act (s.takeGood f) := State.receive_of_isFor act h.1 h.2

/-- A score never sets the link state to JOINING (R152). -/
theorem linkOfScore_ne_joining (n : Nat) : linkOfScore n ≠ .joining := by
  unfold linkOfScore; repeat' split
  all_goals simp

/-- What the good receipt of a frame does to the bus controller (R141, R151, R152). -/
theorem State.takeGood_busAfter (s : State) (f : RxFrame) (hc : s.canReceive = true) :
    (s.takeGood f).bus = { s.bus with
      score := if s.bus.link.takesPart then s.bus.score - 1 else s.bus.score
      link := if s.bus.link.takesPart then linkOfScore (s.bus.score - 1) else s.bus.link
      line := some .wait, recessiveRun := 0, rxBits := [], startStamp := none, errorFound := false, flagBits := 0 } := by
  have hj : s.bus.link ≠ .joining := by simp [State.canReceive] at hc; exact hc.1.1.1
  have hl := linkOfScore_ne_joining (s.bus.score - 1)
  by_cases h : f.src = s.bus.own <;> by_cases h2 : s.bus.link.takesPart = true <;>
    simp [State.takeGood, State.hear, h, State.setPeer, Bus.goodFrame, Bus.endFrame, h2, hj, hl, scoreGood]

/-- The good receipt of a frame marks its sender present, unless it bears this station's own number (R159, R160). -/
theorem State.takeGood_peerAfter (s : State) (f : RxFrame) (h : f.src ≠ s.bus.own) :
    (s.takeGood f).peer f.src = { s.peer f.src with present := true, timer := some (after f.stamp (2 ^ 28)) } := by
  simp [State.takeGood, State.hear, h, State.setPeer, State.peer, Peer.heard, Config.presenceTicks]

/-- The good receipt of a frame touches no other peer (R160). -/
theorem State.takeGood_other (s : State) (f : RxFrame) (p : Station) (hp : p ≠ f.src ∨ f.src = s.bus.own) :
    (s.takeGood f).peer p = s.peer p := by
  by_cases h : f.src = s.bus.own
  · simp [State.takeGood, State.hear, h, State.peer]
  · simp [h] at hp
    simp [State.takeGood, State.hear, h, State.setPeer, State.peer, vget_vset_other _ _ hp]

/-- Beside the bus and the peers' records, the good receipt of a frame changes nothing. -/
theorem State.takeGood_eq (s : State) (f : RxFrame) :
    s.takeGood f = { s with
      peers := { s.peers with peers := (s.takeGood f).peers.peers }, bus := (s.takeGood f).bus } := by
  by_cases h : f.src = s.bus.own <;> simp [State.takeGood, State.hear, h, State.setPeer]

/-! ## Handing out places (R147) -/

/-- The waiting frame that comes first is one of those that wait, and none waits before it. -/
theorem firstWaiting_spec (l : List Waiting) :
    (firstWaiting l = none ↔ l = []) ∧
      ∀ w, firstWaiting l = some w →
        w ∈ l ∧ ∀ x ∈ l, w.kind < x.kind ∨ (w.kind = x.kind ∧ w.since ≤ x.since) := by
  induction l with
  | nil => simp [firstWaiting]
  | cons a l ih =>
    constructor
    · simp only [firstWaiting]
      split <;> simp
      split <;> simp
    · intro w hw
      simp only [firstWaiting] at hw
      split at hw
      · rename_i h
        have := ih.1.1 h
        subst this
        simp at hw
        subst hw
        simp
      · rename_i x h
        obtain ⟨h1, h2⟩ := ih.2 x h
        split at hw <;> rename_i hc <;> simp at hw <;> subst hw
        · refine ⟨by simp [h1], ?_⟩
          intro y hy
          simp at hy
          rcases hy with rfl | hy
          · omega
          · exact h2 y hy
        · refine ⟨by simp, ?_⟩
          intro y hy
          simp at hy
          rcases hy with rfl | hy
          · omega
          · have := h2 y hy
            omega

/-- The first frame of the lowest kind is one of the list, and none has a lower kind. -/
theorem lowestKind_spec (l : List Waiting) :
    (lowestKind l = none ↔ l = []) ∧ ∀ w, lowestKind l = some w → w ∈ l ∧ ∀ x ∈ l, w.kind ≤ x.kind := by
  induction l with
  | nil => simp [lowestKind]
  | cons a l ih =>
    constructor
    · simp only [lowestKind]
      split <;> simp
      split <;> simp
    · intro w hw
      simp only [lowestKind] at hw
      split at hw
      · rename_i h
        have := ih.1.1 h
        subst this
        simp at hw
        subst hw
        simp
      · rename_i x h
        obtain ⟨h1, h2⟩ := ih.2 x h
        split at hw <;> rename_i hc <;> simp at hw <;> subst hw
        · exact ⟨by simp [h1], fun y hy => by
            rcases List.mem_cons.1 hy with rfl | hy
            · omega
            · exact h2 y hy⟩
        · exact ⟨by simp, fun y hy => by
            rcases List.mem_cons.1 hy with rfl | hy
            · omega
            · have := h2 y hy
              omega⟩

/-- The frame with which a source waits is one of its ready frames, and none has a lower kind (R177). -/
theorem firstReady_spec (returned fresh : List Waiting) :
    (firstReady returned fresh = none ↔ returned = [] ∧ fresh = []) ∧
      ∀ w, firstReady returned fresh = some w → w ∈ returned ++ fresh ∧ ∀ x ∈ returned ++ fresh, w.kind ≤ x.kind := by
  have hr := lowestKind_spec returned
  have hf := firstWaiting_spec fresh
  unfold firstReady
  split
  · rename_i x w hx hw
    obtain ⟨x1, x2⟩ := hr.2 x hx
    obtain ⟨w1, w2⟩ := hf.2 w hw
    refine ⟨by simp [List.ne_nil_of_mem x1], ?_⟩
    intro v hv
    simp only [Option.some.injEq] at hv
    split at hv <;> subst hv
    · refine ⟨by simp [w1], fun y hy => ?_⟩
      rcases List.mem_append.1 hy with hy | hy
      · have := x2 y hy
        omega
      · rcases w2 y hy with h | h <;> omega
    · refine ⟨by simp [x1], fun y hy => ?_⟩
      rcases List.mem_append.1 hy with hy | hy
      · exact x2 y hy
      · rcases w2 y hy with h | h <;> omega
  · rename_i x hx hw
    obtain ⟨x1, x2⟩ := hr.2 x hx
    refine ⟨by simp [List.ne_nil_of_mem x1], ?_⟩
    intro v hv
    simp only [Option.some.injEq] at hv
    subst hv
    simpa [hf.1.1 hw] using ⟨x1, x2⟩
  · rename_i hx
    have h0 := hr.1.1 hx
    subst h0
    refine ⟨by simpa using hf.1, ?_⟩
    intro v hv
    obtain ⟨v1, v2⟩ := hf.2 v hv
    refine ⟨by simpa using v1, fun y hy => ?_⟩
    rcases v2 y (by simpa using hy) with h | h <;> omega

/-- A source waits with the frame chosen: its kind and what placing it does are that frame's (R147). -/
@[simp] theorem Waiting.ofSource_frame (l : List Waiting) (w : Waiting) :
    (w.ofSource l).kind = w.kind ∧ (w.ofSource l).pick = w.pick := ⟨rfl, rfl⟩

/-- A MARK_NOTE or TIME_NOTE offered to the queue: dropped, placed, or placed over a displaced frame (R148). -/
theorem State.placeUrgent_cases (s : State) (o : Origin) (f : TxFrame) :
    s.placeUrgent o f = s ∨
      (s.bus.queue.length < 8 ∧ s.placeUrgent o f = s.enqueue o f) ∨
      ∃ e ∈ s.bus.queue, f.kind < e.frame.kind ∧ s.bus.isOnWire e = false ∧
        s.placeUrgent o f = State.returnFrame (State.enqueue
          { s with bus := { s.bus with queue := s.bus.queue.filter fun x => x.id != e.id } } o f) e := by
  unfold State.placeUrgent
  split
  · exact .inl rfl
  · split
    · rename_i h
      exact .inr (.inl ⟨h, rfl⟩)
    · split
      · exact .inl rfl
      · rename_i e he
        have hm := List.mem_of_getLast? he
        simp only [List.mem_filter, Bool.and_eq_true, decide_eq_true_eq, Bool.not_eq_true'] at hm
        exact .inr (.inr ⟨e, hm.1, hm.2.1, hm.2.2, rfl⟩)

/-! ## Score (R152) -/

/-- A new score sets the link state, or detaches the station. -/
theorem State.setScore_cases (s : State) (n : Nat) :
    (n ≤ 223 ∧ s.setScore n = { s with bus := { s.bus with score := n, link := linkOfScore n } }) ∨
      (224 ≤ n ∧ s.setScore n = State.enterSilent { s with bus := { s.bus with score := n } } .detached) := by
  unfold State.setScore linkOfScore
  by_cases h1 : n ≤ 127
  · exact .inl ⟨by omega, by simp [h1]⟩
  · by_cases h2 : n ≤ 223
    · exact .inl ⟨h2, by simp [h1, h2]⟩
    · exact .inr ⟨by omega, by simp [h1, h2]⟩

/-! ## The end of a segment (R31, R32, R48) -/

/-- A segment that is not ending, or still has staged records, is left as it is; another takes its final state, with its
closure note, and may start a render. -/
theorem State.finishSegment_cases (s : State) (k : Fin 8) (render : Bool) :
    s.finishSegment k render = s ∨
      ∃ st, (s.header k).ending = some st ∧ s.store.stagedOf k = 0 ∧
        (s.finishSegment k render =
            (s.setHeader k { s.header k with state := st, ending := none }).noteClosure k ∨
          s.finishSegment k render =
            ((s.setHeader k { s.header k with state := st, ending := none }).noteClosure k).startRender) := by
  unfold State.finishSegment
  dsimp only
  split
  · exact .inl rfl
  · rename_i st h
    split
    · rename_i h0
      refine .inr ⟨st, h, h0, ?_⟩
      split
      · exact .inr rfl
      · exact .inl rfl
    · exact .inl rfl

/-- A session that runs is aborted; another is left as it is (R48, R49). -/
theorem State.cut_cases (s : State) (render : Bool) :
    s.cut render = s ∨
      ∃ c, s.store.current = some c ∧ s.session.state.runs = true ∧
        s.cut render = (State.endSession (State.noteChange
          { s.endSegment c (c.taken.getD c.start) .cut with
            session := { s.session with state := .aborted } } (c.taken.getD c.start))).finishSegment c.seg render := by
  unfold State.cut
  split
  · rename_i c h1 h2
    exact .inr ⟨c, h2, by rw [h1]; rfl, rfl⟩
  · rename_i c h1 h2
    exact .inr ⟨c, h2, by rw [h1]; rfl, rfl⟩
  · exact .inl rfl

/-! ## The trigger (R25–R27) -/

/-- A trigger offer that the store takes does nothing, triggers the current segment, or is counted late. -/
theorem State.takeOffer_cases (s : State) (o : Offer) (late : Bool) :
    s.takeOffer o late = s ∨
      ∃ l c, s.store.layout = some l ∧ s.store.current = some c ∧
        (((s.header c.seg).state = .filling ∧ s.takeOffer o late = s.trigger l c o late) ∨
          ((s.header c.seg).state = .post ∧
            ∃ h, s.takeOffer o late = s.setHeader c.seg h ∧
              h = if o.edge then { s.header c.seg with lateMarks := bump16 (s.header c.seg).lateMarks }
                else { s.header c.seg with lateFires := bump16 (s.header c.seg).lateFires })) := by
  unfold State.takeOffer
  split
  · rename_i l c hl hc
    dsimp only
    split
    · rename_i h
      exact .inr ⟨l, c, hl, hc, .inl ⟨h, rfl⟩⟩
    · rename_i h
      exact .inr ⟨l, c, hl, hc, .inr ⟨h, _, rfl, rfl⟩⟩
    all_goals exact .inl rfl
  · exact .inl rfl

/-- An offer that reaches the store is taken at once, or waits for the element of its tick; with no current segment it has
no effect. -/
theorem State.offer_cases (s : State) (o : Offer) (late : Bool) :
    s.offer o late = s.takeOffer o late ∨
      ∃ c, s.store.current = some c ∧ (s.header c.seg).state = .post ∧ s.elementDue c = true ∧
        s.offer o late =
          { s with store := { s.store with offers := s.store.offers ++ [{ offer := o, late := late }] } } := by
  unfold State.offer
  split
  · rename_i c hc
    split
    · rename_i h
      exact .inr ⟨c, hc, h.1, h.2, rfl⟩
    · exact .inl rfl
  · rename_i hc
    left
    unfold State.takeOffer
    split
    · simp_all
    · rfl

/-- With no offer waiting, none is taken. -/
theorem State.takeOffers_nil {s : State} (h : s.store.offers = []) : s.takeOffers = s := by
  unfold State.takeOffers; rw [h]

/-- What every offer keeps, taking those that waited keeps. -/
theorem State.takeOffers_induct {P : State → Prop} {s : State}
    (hc : P s → P { s with store := { s.store with offers := [] } })
    (ho : ∀ s o late, P s → P (s.takeOffer o late)) (h : P s) : P s.takeOffers := by
  unfold State.takeOffers
  split
  · exact h
  · exact foldl_induct _ (fun s x hs => ho s x.offer x.late hs) _ _ (hc h)

/-! ## The bytes of a cause (R200) -/

/-- What a reader makes of the three bytes of a cause (R200) is that cause, whatever the free bits of a MARK cause are (log
entries 66 and 67). -/
theorem Cause.ofBytes_bytes (c : Cause) : Cause.ofBytes c.bytes = c := by
  match c with
  | .sequencer stage expired kind entry =>
    have first : ∀ (n : Fin 4) (x : Bool),
        let b := BitVec.ofNat 8 (n.val * 32 + endingBit x)
        bit b 7 = false ∧ bits b 5 2 = n.val ∧ bit b 4 = x := by decide +kernel
    obtain ⟨hs, hn, hx⟩ := first stage expired
    cases entry with
    | none => simp [Cause.bytes, Cause.ofBytes, byteAt, hs, hn, hx]
    | some e =>
      have he : e.val % 256 = e.val := by omega
      simp [Cause.bytes, Cause.ofBytes, byteAt, hs, hn, hx, he, e.isLt]
  | .mark peer =>
    have number : ∀ (m : Bool) (a : BitVec 3) (p : Fin 8),
        Cause.ofBytes [BitVec.ofNat 8 (0x80 + endingBit m + (8 + a.toNat)), 0xFF, 0xFF] = .mark none ∧
          Cause.ofBytes [BitVec.ofNat 8 (0x80 + endingBit m + p.val), 0xFF, 0xFF] = .mark (some p) := by
      decide +kernel
    cases peer with
    | none => exact (number _ _ 0).1
    | some p => exact (number _ 0 p).2

end Sys2Proof.Machine
end

