-- ==== Sys2Proof/Laws/PerInstr.lean ====
section
/-! SUPPORT. A statement for every command as syntax, one lemma per constructor: a well-formed command that stands for the
good receipt of a frame carries a payload the bus can deliver (R139, R143). -/

namespace Sys2Proof.Laws.FrameBound

/-- The frame a well-formed command carries, if it carries one, has a payload of at most 60 bytes (R139). -/
def Statement (i : Instr) : Prop := i.wellFormed = true → ∀ f, i.frame? = some f → f.payload.length ≤ 60

/-- A command that carries no frame. -/
theorem of_none {i : Instr} (h : i.frame? = none) : Statement i := by
  intro _ f hf
  simp [h] at hf

/-- A command that carries a frame and is well formed where that frame is. -/
theorem of_some {i : Instr} {f : RxFrame} (h : i.frame? = some f) (hw : i.wellFormed = true → f.wellFormed = true) :
    Statement i := by
  intro hi g hg
  rw [h] at hg
  cases hg
  simpa [RxFrame.wellFormed] using hw hi

theorem fullReset (pins : Straps) : Statement (.fullReset pins) := of_none rfl

theorem filteredLevelChange (ch : Chan) : Statement (.filteredLevelChange ch) := of_none rfl

theorem sampleBoundary (sched : List Consumer) : Statement (.sampleBoundary sched) := of_none rfl

theorem stagingWrite : Statement .stagingWrite := of_none rfl

theorem stageTimerExpiry : Statement .stageTimerExpiry := of_none rfl

theorem markEdge (rising : Bool) (noticeLate : Bool) : Statement (.markEdge rising noticeLate) := of_none rfl

theorem markPulseEnd : Statement .markPulseEnd := of_none rfl

theorem edgeWaitEnd : Statement .edgeWaitEnd := of_none rfl

theorem windowClose : Statement .windowClose := of_none rfl

theorem trigOutEnd : Statement .trigOutEnd := of_none rfl

theorem feedTimeout (q : QueueId) : Statement (.feedTimeout q) := of_none rfl

theorem timeNoteDue : Statement .timeNoteDue := of_none rfl

theorem placeGranted : Statement .placeGranted := of_none rfl

theorem busFree : Statement .busFree := of_none rfl

theorem transmitStart (won : Bool) : Statement (.transmitStart won) := of_none rfl

theorem frameSent (stamp : StationTime) : Statement (.frameSent stamp) := of_none rfl

theorem frameUnheard : Statement .frameUnheard := of_none rfl

theorem frameSpoiled : Statement .frameSpoiled := of_none rfl

theorem frameReceiveError : Statement .frameReceiveError := of_none rfl

theorem rejoinTimerExpiry : Statement .rejoinTimerExpiry := of_none rfl

theorem joinComplete : Statement .joinComplete := of_none rfl

theorem busBreak : Statement .busBreak := of_none rfl

theorem planPart (f : RxFrame) : Statement (.planPart f) := of_some rfl id

theorem arm (f : RxFrame) : Statement (.arm f) := of_some rfl id

theorem halt (f : RxFrame) : Statement (.halt f) := of_some rfl id

theorem restart (f : RxFrame) : Statement (.restart f) := of_some rfl id

theorem timeNote (f : RxFrame) : Statement (.timeNote f) := of_some rfl id

theorem rollCall (f : RxFrame) : Statement (.rollCall f) := of_some rfl id

theorem markNote (f : RxFrame) : Statement (.markNote f) := of_some rfl id

theorem presenceTimeout (p : Station) : Statement (.presenceTimeout p) := of_none rfl

theorem statusNote (f : RxFrame) : Statement (.statusNote f) := of_some rfl id

theorem reduceAsk (f : RxFrame) : Statement (.reduceAsk f) := of_some rfl id

theorem wordsAsk (f : RxFrame) : Statement (.wordsAsk f) := of_some rfl id

theorem statusAsk (f : RxFrame) : Statement (.statusAsk f) := of_some rfl id

theorem stop (f : RxFrame) : Statement (.stop f) := of_some rfl id

theorem wordsNote (f : RxFrame) : Statement (.wordsNote f) := of_some rfl id

theorem askServiceStart : Statement .askServiceStart := of_none rfl

theorem viewPart (f : RxFrame) : Statement (.viewPart f) := of_some rfl fun h => by simpa [Instr.wellFormed] using And.left (by simpa [Instr.wellFormed] using h)

theorem viewGo (f : RxFrame) : Statement (.viewGo f) := of_some rfl fun h => by simpa [Instr.wellFormed] using And.left (by simpa [Instr.wellFormed] using h)

theorem runs (f : RxFrame) : Statement (.runs f) := of_some rfl id

theorem boxes (f : RxFrame) : Statement (.boxes f) := of_some rfl id

theorem fetchDeadline (lane : Fin 16) : Statement (.fetchDeadline lane) := of_none rfl

theorem reaskTimer (lane : Fin 16) : Statement (.reaskTimer lane) := of_none rfl

theorem pushEnd : Statement .pushEnd := of_none rfl

theorem comparatorStateChange (ch : Chan) (microvolts : Int) : Statement (.comparatorStateChange ch microvolts) := of_none rfl

theorem errorSignallingEnd : Statement .errorSignallingEnd := of_none rfl

theorem breakEnd : Statement .breakEnd := of_none rfl

end Sys2Proof.Laws.FrameBound
end

