-- ==== Sys2Proof/Tests/Slice0.lean ====
section
/-! SUPPORT. The model's own tests. First the checks of WellFormed, each with a term it refuses; then small tests whose
expected results are worked figures or tables of the manual; then, for every statement with hypotheses, a state and
operands that meet them, clause by clause. -/

namespace Sys2Proof.Tests

open Sys2Proof Sys2Proof.Machine

/-! ## Helpers -/

/-- A frame from station 1 to station 0. -/
def fr (payload : List Byte) : RxFrame := { src := 1, dst := 0, bcast := false, stamp := 990, payload := payload }

/-- A frame with this station's own number as source. -/
def ownFr (payload : List Byte) : RxFrame := { fr payload with src := 0 }

/-- Station 0 after joining, the bus FREE, at station time 1,000. -/
def base : State := { State.reset with
  time := 1000
  frontEnd := { State.reset.frontEnd with nextBoundary := 1004, lastBoundary := some 1000 }
  bus := { State.reset.bus with link := .normal, line := some .free } }

/-- `base` in a session with one segment of 32,768 places, FILLING, its start boundary 1,000 taken. -/
def filling : State := { base with
  store := { Store.reset with
    layout := some { segCode := 0, rate := 2, p := 4, postTime := 0 }
    headers := vset Store.reset.headers 0 { SegHeader.empty with state := .filling, base := 1000, count := 5 }
    reference := some { time := 1000, levels := 0 }
    current := some { seg := 0, start := 1000, taken := some 1000 } }
  session := { Session.reset with active := some Plan.default, state := .armed, k := some 0 }
  sequencer := { Sequencer.reset with
    stages := some Plan.default.stages, stageCount := 1, state := .running, entry := .atBoundary 1000 }
  decoders := { Decoders.reset with running := true } }

/-- `filling` after a trigger: the segment in POST. -/
def post : State := { filling with
  store := { filling.store with
    headers := vset filling.store.headers 0
      { SegHeader.empty with state := .post, base := 1000, count := 5, trigTime := some 1000, postRemaining := some 9
                             cause := some (.mark none) } }
  session := { filling.session with state := .triggered }
  sequencer := { filling.sequencer with state := .parked } }

/-- A session that is DONE, its one segment in the state given. -/
def done (st : SegState) : State := { base with
  store := { filling.store with
    current := none, headers := vset filling.store.headers 0 { SegHeader.empty with state := st, base := 1000 } }
  session := { filling.session with state := .done } }

/-- A staged record. -/
def staged : Staged :=
  { seg := 0, rcd := { delta := 7, levels := 3, glitch := 0, first := false, trigger := false, filler := false
                       merged := false } }

/-- A frame in the transmit queue. -/
def entry (id : Nat) (origin : Origin) (kind : BitVec 4) : QEntry :=
  { id := id, origin := origin, frame := { kind := kind, dst := 1, bcast := false, payload := [] } }

/-- Eight frames, the first on the wire. -/
def full : List QEntry :=
  entry 1 .markUnit 0 :: (entry 2 .viewStop 5 :: List.replicate 5 (entry 3 .session 13)) ++ [entry 9 .rollCall 15]

/-- An ask of station 1 in the table. -/
def ask (id : Nat) (tag : Byte) : AskEntry := readAsk id 1 false (tag :: List.replicate 15 0 ++ [4])

/-- A state with frames in its queue. -/
def withQueue (l : List QEntry) (wire : Option Nat) : State :=
  { base with bus := { base.bus with queue := l, onWire := wire }, order := 20 }

/-- A word of unit 0. -/
def word : Word :=
  { decoder := 0, kind := .data, value := 0, value2 := none, start := 1000, stop := 1001
    flags := { parity := false, framing := false, short := false, undersampled := false, glitched := false
               acked := false }
    matched := none, seg := 0 }

/-- `base` with an ask table. -/
def asked (l : List AskEntry) : State := { base with asks := { AskService.reset with table := l }, order := 20 }

/-- A lane of the fetch table at station 1. -/
def lane (n : Fin 16) (st : FetchState) : Fetch :=
  { Fetch.start { Lane.unused with used := true, station := 1 } (laneTag 0 n) with state := st }

/-- A render pass with lanes 0 and 1 used, at station 1, both PENDING. -/
def fetching : State := { base with view := { base.view with
  pass := some {
    lanes := vset (vset base.view.lanes 0 { Lane.unused with used := true, station := 1 }) 1
      { Lane.unused with used := true, station := 1 }
    window := base.view.window, zero := some 500, phase := .collecting }
  fetch := vset (vset base.view.fetch 0 (some (lane 0 .pending))) 1 (some (lane 1 .pending)) } }

/-- `filling` at a station that watches MARK. -/
def watching : State := { filling with mark := { filling.mark with
  cfg := some { role := .lead, sense := .any, hold := 16 }, state := .watch } }

/-- A fire of segment 0. -/
def fired : Fire := { seg := 0, cause := .mark none, causeTime := 1000, boundary := 1000, lasting := false }

/-- `watching` with the fire handed to its mark unit. -/
def handing : State := { watching with mark := { watching.mark with handed := some fired } }

/-- `filling` with unit 1 a UART in HUNT that owes a GAP word. -/
def hunting : State := { filling with
  decoders := { filling.decoders with
    units := vset filling.decoders.units 1 { vget filling.decoders.units 1 with
      cfg := some { cfg := .uart { ch := 0, bit16 := 128, dataBits := 8, parity := .none, twoStops := false
                                   idleHigh := false, gap := 2 }
                    dest := .discard }
      assembly := .uart { phase := .hunt, gapStart := some 900 } } } }

/-- `handing` at a SOLO station, channel 0 HIGH, at the boundary after the fire's. -/
def soloFire : State := { handing with
  time := 1004
  frontEnd := { handing.frontEnd with filtered := 1 }
  mark := { handing.mark with cfg := some { role := .solo, sense := .any, hold := 16 }, state := .off } }

theorem filling_sessionInv : filling.SessionInv := by
  show _ ∧ _
  decide +kernel

/-! ## WellFormed -/

theorem test_wellFormed_accepts_60_bytes : (Instr.arm (fr (List.replicate 60 0))).wellFormed = true := by decide

theorem test_wellFormed_refuses_61_bytes : (Instr.arm (fr (List.replicate 61 0))).wellFormed = false := by decide

theorem test_wellFormed_viewGo_is_identity_5 :
    (Instr.viewGo (fr [5])).wellFormed = true ∧ (Instr.viewGo (fr [4])).wellFormed = false ∧
      (Instr.viewGo (fr [5, 0])).wellFormed = false := by decide

theorem test_wellFormed_viewPart_is_not_go :
    (Instr.viewPart (fr [5])).wellFormed = false ∧ (Instr.viewPart (fr [5, 0])).wellFormed = true := by decide

/-! ## Worked figures of the manual -/

/-- The table gives no row any bits, so a word spells no command. -/
theorem test_table_words_spell_nothing : decodeTableWord 8 0 = none := rfl

/-- 8.1: the bit times and sample points of the four rates (R138). -/
theorem test_bit_times :
    (bitTime 0, bitTime 1, bitTime 2, bitTime 3, samplePoint 0, samplePoint 1) = (200, 80, 40, 20, 140, 56) := by
  decide

/-- R26, R81: the fire of boundary 1,000 triggers before the store takes the element of 1,004, so its TRIGGER record lies at
the reference time and the record of 1,004 follows one period later. -/
theorem test_fire_precedes_next_element :
    (State.deliver soloFire [.store] { boundary := 1004, levels := 1, glitch := 0 }).store.fifo.map
      (fun x => (x.rcd.trigger, x.rcd.delta)) = [(true, 0), (false, 1)] := by decide +kernel

/-- 8.3.1, R147: a frame returned to the ask service waits from its return, so a note of the session that waits longer goes
first; a frame of the ask service that waits longer still lets the returned one go first. -/
theorem test_returned_frame_waits_from_return :
    let h := fun (n : Nat) => ({ since := n, origin := .askStatus, frame := (entry 1 .session 13).frame } : Held)
    let s : State := { base with
      session := { base.session with notes := [{ kind := .closure, held := h 5 }] }
      asks := { AskService.reset with returned := [h 9] } }
    let r : StatusReply := { asker := 1, selector := .summary, since := 3, composed := none }
    (firstWaiting s.waits).map (·.pick) = some (.sessionNote { kind := .closure, held := h 5 }) ∧
      (firstWaiting (State.waits { s with asks := { s.asks with status := [r] } })).map (·.pick) =
        some (.askReturned (h 9)) := by decide +kernel

/-- 9.7.1: the skew of the first span and the smoothed one (R166). -/
theorem test_skew_worked_case :
    skewEstimate 10000000 10001000 = 1677 ∧
      (Peer.updateSkew { Peer.empty with skew := 1650, skewValid := true } 10000000 10001000).skew = 1656 := by decide

/-- 9.7.1: both rows of the forward conversion, and the inverse (R167, R168). -/
theorem test_conversion_worked_case :
    let a : Anchor := { remote := 1000000000, loc := 1000250000 }
    forward a 1677 1000400000 = 1000650040 ∧ forward a 1677 999600000 = 999849960 ∧
      inverse a 1677 1000650040 = 1000400000 := by decide

/-- 9.7.2: note 13 moves the skew from 1,679 to 1,699 (R166). -/
theorem test_skew_note_13 :
    (Peer.updateSkew { Peer.empty with skew := 1679, skewValid := true } 2097160 2097380).skew = 1699 := by decide

/-- 10.8: the column boundaries, as offsets from S' (R172). -/
theorem test_columns_worked_case :
    (List.range 5).map (columnOffset 100000 (-1677)) = [0, 99990, 199980, 299970, 399960] := by decide

/-- 10.8: no two neighbours agree, so four runs of length 1 (R174). -/
theorem test_runs_worked_case :
    (packRuns [(.toggle, false), (.high, false), (.toggle, false), (.low, true)]).map (·.length) = [1, 1, 1, 1] := by
  decide

/-- 2.6.1: the first merge of the worked sequence: H H L L over H L L L gives glitch {1} and MERGED (R21). -/
theorem test_merge_worked_sequence :
    let n : Rec := { delta := 1, levels := 1, glitch := 0, first := false, trigger := false, filler := false
                     merged := false }
    let st := Store.offerRec { Store.reset with
        fifo := List.replicate 14 { seg := 0, rcd := n }, reference := some { time := 2000, levels := 1 } }
      0 2001 { n with levels := 3 }
    st.fifo.length = 14 ∧ st.fifo.getLast? = some { seg := 0, rcd := { n with levels := 3, glitch := 2, merged := true } } ∧
      st.reference = some { time := 2000, levels := 3 } ∧ st.mergedSeen = true := by decide +kernel

/-- 4.12: a LOW pulse of 60 ticks is in range at boundary 1,460, one of 36 at 1,636 is not (R61). -/
theorem test_pulse_worked_sequence :
    let q := fun (t : StationTime) => { Sequencer.reset with lastChange := vset Sequencer.reset.lastChange 9 (some t) }
    let e := fun (b : StationTime) => ({ boundary := b, levels := 0x200, glitch := 0 } : Element)
    (q 1400).occurs (.pulse 9 false 40 100) (e 1460) = true ∧
      (q 1600).occurs (.pulse 9 false 40 100) (e 1636) = false := by decide +kernel

/-- 1.5.1: at boundary 8 the channel that moved twice is sampled LOW, in the glitch set and in the activity mask
(R7, R8, R10). -/
theorem test_glitch_worked_sequence :
    let fe := { State.reset.frontEnd with changes := vset State.reset.frontEnd.changes 5 2 }
    chanBit (fe.element 8).levels 5 = false ∧ chanBit (fe.element 8).glitch 5 = true ∧
      chanBit (fe.deliver 8).activity 5 = true := by decide +kernel

/-- A broadcast HALT. -/
def halt : TxFrame := { kind := 1, dst := 0, bcast := true, payload := [] }

/-- The bits of `halt` from station 3, the receipt slot driven by a receiver. -/
def haltBits : List Bool :=
  stuffed (false :: contentBits 3 halt ++ beBits 16 (crc (contentBits 3 halt)).toNat) ++
    [false, true, true, true, true, true]

/-- What a receiver reads of a frame's bits. -/
def readBack (l : List Bool) : Option (Nat × RxFrame) :=
  match scanFrame l with
  | .good content => some (readContent 990 content)
  | .more _ | .error _ => none

theorem test_frame_read_back :
    readBack haltBits = some (1, { src := 3, dst := 0, bcast := true, stamp := 990, payload := [] }) := by
  decide +kernel

/-- A flipped bit is found by its CRC (R143). -/
theorem test_flipped_bit_found : readBack (haltBits.modify 5 (!·)) = none := by decide +kernel

/-- R140, R145: the error of a CRC that ends with a run of 6 is found at the stuff bit after it, not before. -/
theorem test_crc_error_waits_for_stuff_bit :
    let region := stuffed (false :: contentBits 3 halt ++ beBits 16 0x023F)
    region.getLast? = some false ∧ scanFrame region.dropLast = .more false ∧ scanFrame region = .error .crc := by
  decide +kernel

/-- The stuffed region of a frame with a 60-byte payload is 514 bits long before stuffing (R140). -/
theorem test_longest_region : (1 + (contentBits 0 { halt with payload := List.replicate 60 0 }).length + 16) = 514 := by
  decide +kernel

/-! ## Witnesses: states and operands that meet the hypotheses of the statements, clause by clause -/

/-- `filling` with a command that waits and does nothing there. -/
def stepping : State := { filling with pending := [.trigOutEnd] }

theorem stepping_runs : step stepping = .next filling := rfl

theorem witness_StepRunsFrontCommand : stepping.pending = .trigOutEnd :: [] := rfl

theorem witness_IdleStepIsDueOrTick :
    (base.pending = [] ∧ base.dueList = [] ∧ base.mark.handed = none) ∧
      (handing.pending = [] ∧ handing.dueList = [] ∧ handing.mark.handed = some fired) ∧
      .trigOutEnd ∈ { base with mark := { base.mark with trigOutEnd := some 1000 } }.dueList := by decide +kernel

theorem witness_CommandsKeepOtherBlocks : Block.store ∉ mayChange .trigOutEnd := by decide

theorem witness_OnlyTheirCommandsWrite :
    exec .trigOutEnd filling = .next filling ∧ writesRecords .trigOutEnd = false ∧ writesActive .trigOutEnd = false ∧
      writesDraft .trigOutEnd = false := ⟨rfl, rfl, rfl, rfl⟩

theorem witness_PushRunsToItsEnd :
    base.view.push.isSome = true ∧ endsPush .trigOutEnd = false ∧ exec .trigOutEnd base = .next base :=
  ⟨rfl, rfl, rfl⟩

theorem witness_StoreInvariantKept : stepping.MemoryInv ∧ stepping.CapacityInv := by
  refine ⟨⟨rfl, rfl⟩, ?_⟩
  intro l hl
  cases hl
  decide +kernel

theorem witness_BusInvariantKept : stepping.QueueInv ∧ stepping.LinkInv := by
  refine ⟨⟨by decide, fun id h => by cases h⟩, ?_⟩
  unfold State.LinkInv
  decide +kernel

theorem witness_SamplingInvariantKept : stepping.SamplingInv := by
  unfold State.SamplingInv
  decide +kernel

theorem witness_SessionInvariantKept : stepping.SessionInv := by
  show _ ∧ _
  decide +kernel

theorem witness_WordBalanceKept : stepping.WordsInv ∧ stepping.WordBalance := by
  refine ⟨fun q => by cases q <;> decide, by decide +kernel, fun q => by cases q <;> decide⟩

theorem witness_WordBalanceKept_arm :
    { base with words := base.words.arm Plan.default 0 }.words = base.words.arm Plan.default 0 := rfl

theorem witness_AskTableInvariantKept :
    let s : State := { stepping with asks := { AskService.reset with table := [ask 1 7, ask 2 8] }, order := 3 }
    s.AskInv ∧ s.KindInv ∧ step s = .next { s with pending := [] } := by
  refine ⟨by unfold State.AskInv; decide +kernel, ⟨by decide, ?_, ?_, ?_, ?_, ?_⟩, rfl⟩
  · intro e he
    cases he
  · intro e he
    cases he
  · intro q
    cases q <;> intro f hf <;> cases hf
  · intro e he p hp
    rcases List.mem_cons.1 he with rfl | he
    · cases hp
    · rcases List.mem_cons.1 he with rfl | he
      · cases hp
      · cases he
  · intro r hr
    cases hr

theorem witness_SkewAndMarkInvariantKept : stepping.SkewInv ∧ stepping.MarkInv := by
  unfold State.SkewInv State.MarkInv
  decide +kernel

theorem witness_RestartActsAsFullReset :
    (base.Takes (fr []) ∧ (fr []).bcast = false ∧ (fr []).payload = []) ∧
      (base.Takes { fr [] with bcast := true } ∧ { fr [] with bcast := true }.bcast = true) ∧
      base.Takes (fr [1]) ∧ (fr [1]).payload ≠ [] :=
  ⟨⟨⟨rfl, rfl⟩, rfl, rfl⟩, ⟨⟨rfl, rfl⟩, rfl⟩, ⟨rfl, rfl⟩, by decide⟩

theorem witness_ComparatorFollowsInput :
    chanBit base.frontEnd.comparator 15 = false ∧
      chanBit { base.frontEnd with comparator := 0x8000 }.comparator 15 = true := by decide

theorem witness_DeglitchFilter :
    let fe := base.frontEnd
    let up : State := { base with
      frontEnd := { fe with probe := Vector.replicate 16 5000000, deglitch := Vector.replicate 2 1 } }
    let due : State := { base with frontEnd := { fe with probe := Vector.replicate 16 5000000
                                                         hold := Vector.replicate 16 3
                                                         deglitch := Vector.replicate 2 3 } }
    (fe.chanPresent 0 = true ∧ chanBit base.tick.frontEnd.registered 0 = chanBit fe.filtered 0) ∧
      (chanBit up.tick.frontEnd.registered 0 ≠ chanBit up.frontEnd.filtered 0 ∧
        (vget up.frontEnd.hold 0).toNat < (up.frontEnd.deglitchOf 0).toNat) ∧
      (chanBit due.tick.frontEnd.registered 0 ≠ chanBit due.frontEnd.filtered 0 ∧
        (due.frontEnd.deglitchOf 0).toNat ≤ (vget due.frontEnd.hold 0).toNat) ∧
      chanBit { fe with changing := 0x8000 }.changing 15 = true := by decide +kernel

theorem witness_SampleBoundaryDelivers :
    let runsAfter := fun (s : State) => match exec (.sampleBoundary []) s with
      | .next t => t.session.state.runs
      | _ => s.session.state.runs
    let last : State := { post with
      time := 1004
      store := { post.store with headers := vset post.store.headers 0 { post.header 0 with deadline := some 1004 } } }
    { base with time := 1004 }.time = base.frontEnd.nextBoundary ∧ base.frontEnd.changing = 0 ∧
      base.store.current = none ∧
      runsAfter { filling with time := 1004 } = true ∧
      (last.time = last.frontEnd.nextBoundary ∧ last.frontEnd.changing = 0 ∧ last.session.state.runs = true ∧
        runsAfter last = false) ∧
      (let s : State := { hunting with time := 1004 }
       let e : Element := { boundary := 1004, levels := s.frontEnd.filtered, glitch := 0 }
       let x := State.storeElement { s with frontEnd := s.frontEnd.deliver s.time } e
       (x.decElement 0 e).1 = [] ∧ (x.decElement 1 e).1.length = 1 ∧ (x.decElement 2 e).1 = [] ∧
         (x.decElement 3 e).1 = []) ∧
      ({ handing with time := 1004 }.mark.handed = some fired ∧ fired.boundary ≠ 1004 ∧
        handing.frontEnd.nextBoundary = 1004 ∧ handing.frontEnd.changing = 0 ∧ hunting.mark.handed = none) ∧
      ∀ u, (base.decElement u { boundary := 1004, levels := 0, glitch := 0 }).1 = [] := by
  decide +kernel

theorem witness_StagingWriteFillsRing :
    let s : State := { filling with store := { filling.store with
      fifo := [staged]
      headers := vset filling.store.headers 0 { filling.header 0 with count := 32767, oldest := 1 } } }
    s.store.fifo = staged :: [] ∧ s.store.writeWait = 0 ∧
      ∀ l, s.store.layout = some l →
        staged.seg.val < l.segments ∧ (s.header 0).count < l.capacity ∧ (s.header 0).ending = none ∧
          ∃ y ∈ [staged], y.seg = staged.seg := by
  refine ⟨rfl, rfl, fun l hl => ?_⟩
  cases hl
  decide +kernel

theorem witness_StagingWriteMovesBase :
    let s : State := { filling with store := { filling.store with
      fifo := [staged], mem := [(0, staged.rcd)]
      headers := vset filling.store.headers 0 { filling.header 0 with count := 32768, oldest := 32767 } } }
    s.store.fifo = staged :: [] ∧ s.store.writeWait = 0 ∧
      ∀ l, s.store.layout = some l →
        staged.seg.val < l.segments ∧ (s.header 0).count = l.capacity ∧ (s.header 0).ending = none ∧
          0 * l.capacity ≤ (s.header 0).oldest ∧ (s.header 0).oldest < 0 * l.capacity + l.capacity ∧
          s.store.read (0 + ((s.header 0).oldest - 0 + 1) % l.capacity) = some staged.rcd ∧
          word.seg = staged.seg ∧ earlier word.start (after (s.header 0).base (staged.rcd.delta.toNat * period l.rate)) ∧
          0 < ([word, word].drop 1).length ∧ FeedState.collecting ≠ .off := by
  refine ⟨rfl, rfl, fun l hl => ?_⟩
  cases hl
  decide +kernel

theorem witness_StagingWriteEndsSegment :
    let s : State := { done .post with store := { (done .post).store with
      fifo := [staged]
      headers := vset filling.store.headers 0 { (done .post).header 0 with ending := some .complete } } }
    let f : State := { s with store := { s.store with
      mem := [(0, staged.rcd)]
      headers := vset s.store.headers 0 { s.header 0 with count := 32768, oldest := 32767 } } }
    (f.store.fifo = staged :: [] ∧ (f.header 0).ending = some .complete ∧
      f.store.layout.map (·.capacity) = some (f.header 0).count ∧
      f.store.read (0 + (32767 - 0 + 1) % 32768) = some staged.rcd) ∧
    s.store.fifo = staged :: [] ∧ s.store.writeWait = 0 ∧ s.store.layout.isSome = true ∧
      (s.header 0).count < 32768 ∧ (s.header 0).ending = some .complete := by decide +kernel

theorem witness_StoreTakesElement :
    let start : State := { filling with store := { filling.store with
      current := some { seg := 0, start := 1000, taken := none } } }
    let fills : Plan := { Plan.default with general := { General.default with prefill := true } }
    (filling.store.layout.isSome = true ∧ filling.session.active = some Plan.default ∧ filling.store.offers = [] ∧
      filling.store.current = some { seg := 0, start := 1000, taken := some 1000 } ∧
      filling.store.reference = some { time := 1000, levels := 0 } ∧ (filling.header 0).state = .filling ∧
      (filling.header 0).postRemaining = none ∧ filling.store.fifo.length ≤ 13) ∧
    (start.store.current = some { seg := 0, start := 1000, taken := none } ∧ (start.header 0).state = .filling ∧
      (1004 : StationTime) ≠ 1000) ∧
    (65535 ≤ ((1000 + 262140 : StationTime) - 1000).toNat / period 2 ∧
      ((1000 + 262139 : StationTime) - 1000).toNat / period 2 < 65535) ∧
    (filling.session.ready = false ∧ Plan.default.general.prefill = false ∧ fills.general.prefill = true ∧
      5 + 0 + 1 < 32768 - (max 1 (32768 * 4 / 8 - 1)) - 1) ∧
    (let crowd : State := { post with store := { post.store with fifo := List.replicate 14 staged } }
     crowd.store.current = some { seg := 0, start := 1000, taken := some 1000 } ∧ crowd.store.offers = [] ∧
       14 ≤ crowd.store.fifo.length ∧ crowd.session.active = some Plan.default ∧
       crowd.store.reference = some { time := 1000, levels := 0 } ∧ (crowd.header 0).postRemaining = some 9) ∧
    ((post.header 0).state = .post ∧ (post.header 0).postRemaining = some 9 ∧
      { post.session with ready := true }.ready = true ∧ (post.header 0).deadline = none ∧
      notAfter (1004 : StationTime) 1004 = true ∧ (∀ y ∈ post.store.fifo, y.seg ≠ 0) ∧ 0 + 1 = 2 ^ (0 : BitVec 2).toNat ∧
      (1 : Fin 8).val = 0 + 1 ∧ (1 : Fin 8).val < 2 ^ (1 : BitVec 2).toNat ∧ post.sequencer.state = .parked) := by
  decide +kernel

/-- A segment triggered before its start boundary, without a deadline and with one at that boundary; and a segment in POST
that is not ready, its record of prefill still to come or the one before its last. -/
theorem witness_StoreTakesElement_triggered_early :
    let early := fun (due : Option StationTime) => ({ post with store := { post.store with
      current := some { seg := 0, start := 1000, taken := none }
      headers := vset post.store.headers 0 { post.header 0 with deadline := due } } } : State)
    let fills := fun (held : Nat) => ({ post with
      session := { post.session with
        active := some { Plan.default with general := { General.default with prefill := true } } }
      store := { post.store with
        headers := vset post.store.headers 0 { post.header 0 with count := held, postRemaining := some 2 } } } : State)
    let waits : State := { filling with sequencer := { filling.sequencer with state := .waiting } }
    ((early none).store.current = some { seg := 0, start := 1000, taken := none } ∧
      (early none).store.offers = [] ∧ ((early none).header 0).state = .post ∧
      ((early none).header 0).postRemaining = some 9 ∧ ((early none).header 0).deadline = none ∧
      ((early (some 1000)).header 0).deadline = some 1000 ∧ ((early (some 1001)).header 0).deadline = some 1001) ∧
    (notAfter (1000 : StationTime) 1000 = true ∧ notAfter (1001 : StationTime) 1000 = false ∧
      post.session.ready = false ∧ post.session.state ≠ .armed) ∧
    (32768 - max 1 (32768 * 4 / 8 - 1) - 1 = 16384 ∧ (fills 16383).session.ready = false ∧
      ((fills 16383).header 0).postRemaining = some 2 ∧ ((fills 16383).header 0).count = 16383 ∧
      ((fills 16382).header 0).count = 16382) ∧
    (waits.session.state = .armed ∧ waits.sequencer.state = .waiting ∧
      waits.sequencer.stages = some Plan.default.stages ∧ waits.session.ready = false) ∧
    (let m := { watching.mark with cfg := some { role := .follow, sense := .all, hold := 16 }, state := .hold }
     m.state = .hold ∧ watching.mark.state ≠ .hold ∧ m.cfg.isSome = true) := by
  decide +kernel

theorem witness_MergeFolds :
    let st := { Store.reset with fifo := List.replicate 13 staged ++ [staged] }
    st.fifo = List.replicate 13 staged ++ [staged] ∧ 14 ≤ st.fifo.length := ⟨rfl, by decide⟩

theorem witness_LateOffersCount :
    let o : Offer := { time := 1004, cause := .mark none, causeTime := 1004, edge := true }
    let c : Current := { seg := 0, start := 1000, taken := some 1000 }
    base.store.current = none ∧ post.store.current = some c ∧ (post.header 0).state = .post ∧
      post.elementDue c = false ∧ { post with time := 1004 }.elementDue c = true ∧
      { post with store := { post.store with offers := [{ offer := o, late := false }] } }.store.offers =
        [{ offer := o, late := false }] := by decide +kernel

theorem witness_MarkEdgeTriggers :
    let quiet := { handing with bus := { handing.bus with link := .duplicate } }
    let solo := { handing with mark := { handing.mark with cfg := some { role := .solo, sense := .any, hold := 16 } } }
    watching.mark.state = .watch ∧ watching.mark.mrx = true ∧ watching.mark.edgeThisTick = false ∧
      watching.mark.handed = none ∧ watching.store.layout.isSome = true ∧
      watching.store.current = some { seg := 0, start := 1000, taken := some 1000 } ∧
      watching.store.reference = some { time := 1000, levels := 0 } ∧ (watching.header 0).state = .filling ∧
      watching.sequencer.state ≠ .stopped ∧
      (quiet.mark.handed = some fired ∧ quiet.pending = [] ∧ quiet.dueList = [] ∧ quiet.bus.link.silent = true ∧
        (quiet.header 0).state = .filling) ∧
      (solo.mark.handed = some fired ∧ solo.pending = [] ∧ solo.dueList = []) ∧
      (let late : State := { post with mark := handing.mark }
       late.mark.handed = some fired ∧ late.mark.cfg.isSome = true ∧ late.pending = [] ∧ late.dueList = [] ∧
         (late.header 0).state = .post ∧ late.elementDue { seg := 0, start := 1000, taken := some 1000 } = false) ∧
      (let idle : State := { base with mark := handing.mark }
       idle.mark.handed = some fired ∧ idle.mark.cfg.isSome = true ∧ idle.dueList = [] ∧ idle.store.current = none) ∧
      (let m := fun (st : MarkState) (mrx : Bool) => { watching.mark with state := st, mrx := mrx, waitEnd := none }
       (∀ st ∈ [MarkState.off, .watch, .pulse, .hold], (m st false).mrx = !true ∧ (m st false).state ≠ .opened) ∧
         (∀ st ∈ [MarkState.off, .hold, .opened, .pulse], (m st true).mrx = !false ∧ (m st true).waitEnd = none)) := by
  decide +kernel

theorem witness_OwnEdgesTaken :
    let p : State := { watching with mark := { watching.mark with
      state := .pulse, fire := some fired, pulseEnd := some 1016, waitEnd := some 1032 } }
    let o : State := { watching with mark := { watching.mark with state := .opened, mrx := false } }
    let l : State := { o with mark := { o.mark with fire := some fired } }
    (p.mark.edgeThisTick = false ∧ p.mark.handed = none ∧ p.mark.state = .pulse ∧ p.mark.mrx = true ∧
      p.mark.fire = some fired ∧ p.mark.waitEnd = some 1032 ∧ p.bus.link.silent = false ∧ p.bus.queue.length < 8 ∧
      p.store.layout.isSome = true ∧ (p.header 0).state = .filling) ∧
    (l.mark.state = .opened ∧ l.mark.mrx = false ∧ l.mark.fire = some fired ∧ o.mark.fire = none) ∧
    p.SessionInv ∧ o.SessionInv ∧ l.SessionInv := by
  refine ⟨by decide +kernel, by decide +kernel, ?_, ?_, ?_⟩ <;> exact filling_sessionInv

theorem witness_OwnEdgesTaken_note_placed :
    let f := markNoteFrame 0 1000 (.mark none)
    let low := List.replicate 8 (entry 1 .markUnit 0)
    LinkState.detached.silent = true ∧ base.bus.link.silent = false ∧ base.bus.queue.length < 8 ∧
      (8 ≤ low.length ∧ ∀ e ∈ low, e.frame.kind ≤ f.kind) ∧
      ((withQueue full (some 1)).bus.queue = full.dropLast ++ entry 9 .rollCall 15 :: [] ∧ 8 ≤ full.length ∧
        (∀ x ∈ full.dropLast ++ [], x.id ≠ 9) ∧ f.kind < (entry 9 .rollCall 15).frame.kind ∧
        (withQueue full (some 1)).bus.onWire ≠ some 9) := by
  decide +kernel

theorem witness_MarkAndFeedTimers :
    let m := fun (x : MarkUnit) (st : SeqState) =>
      ({ filling with mark := x, sequencer := { filling.sequencer with state := st } } : State)
    let pulse := { filling.mark with state := .pulse, pulseEnd := some 1000, waitEnd := some 1000 }
    let feed : State := { base with words := base.words.setQueue .a { base.words.qa with
      feed := { base.words.qa.feed with state := .collecting, timer := some 1000 } } }
    notAfter 1000 base.time = true ∧
      ((m pulse .fired).mark.state = .pulse ∧ (m pulse .fired).mark.pulseEnd = some 1000 ∧
        (m pulse .fired).mark.waitEnd = some 1000 ∧ (m pulse .fired).sequencer.state = .fired ∧
        (m pulse .running).sequencer.state ≠ .fired ∧
        (m pulse .fired).sequencer.stages = some Plan.default.stages) ∧
      (m { filling.mark with trigOutEnd := some 1000 } .fired).mark.trigOutEnd = some 1000 ∧
      ((m { filling.mark with state := .opened, closing := some 1000 } .fired).mark.state = .opened ∧
        (m { filling.mark with state := .opened, closing := some 1000 } .fired).mark.heldOpen = false ∧
        (m { filling.mark with state := .opened, closing := some 1000 } .fired).mark.closing = some 1000) ∧
      ((feed.words.queue .a).feed.state = .collecting ∧ (feed.words.queue .a).feed.timer = some 1000) := by
  decide +kernel

theorem witness_PlanPartReplacesItsPart :
    base.Takes (fr (0 :: List.replicate 13 0)) ∧ planPartLength 0 = some 13 ∧ planPartLength 15 = some 11 ∧
      planPartLength 14 = some 36 ∧ planPartLength 16 = none ∧ base.session.state.runs = false ∧
      filling.session.state.runs = true := ⟨⟨rfl, rfl⟩, rfl, rfl, rfl, rfl, rfl, rfl⟩

theorem witness_WrittenFieldsClamped :
    (∀ k : Fin 6, (byteAt [BitVec.ofNat 8 k.val] 0).toNat = k.val) ∧ (byteAt [255] 0).toNat = 255 ∧
      (∀ role : Fin 4, (byteAt [0, 0, 0, 0, 0, BitVec.ofNat 8 (2 * role.val + 1)] 5).toNat / 2 % 4 = role.val) ∧
      (0 : Fin 24).val / 4 = (0 : Fin 6).val ∧ (3 : Fin 24).val / 4 = (0 : Fin 6).val ∧
      (4 : Fin 24).val / 4 = (1 : Fin 6).val ∧ (23 : Fin 24).val / 4 = (5 : Fin 6).val := by decide

theorem witness_ArmChecksTheDraft :
    Plan.default.firstBad base.frontEnd = none ∧
      { Plan.default with general := { General.default with stageCount := 0 } }.firstBad base.frontEnd = some 0  ∧
      { Plan.default with
        general := { General.default with stageCount := 2 }
        stages := Vector.replicate 4 { Stage.default with cond := .pulse 0 true 9 3 } }.firstBad base.frontEnd =
        some 1 := by
  decide +kernel

theorem witness_ArmRefused :
    let bad : State := { base with session := { base.session with
      draft := { Plan.default with general := { General.default with role := .follow } } } }
    (base.Takes (fr [0xFE]) ∧ (0xFE : Byte).getLsbD base.bus.own.val = false) ∧
      (filling.Takes (fr [1]) ∧ (1 : Byte).getLsbD filling.bus.own.val = true ∧ filling.session.state.runs = true) ∧
      (bad.Takes (fr [1]) ∧ bad.session.state.runs = false ∧ bad.session.draft.firstBad bad.frontEnd = some 0) :=
  ⟨⟨⟨rfl, rfl⟩, rfl⟩, ⟨⟨rfl, rfl⟩, rfl, rfl⟩, ⟨rfl, rfl⟩, rfl, by decide +kernel⟩

theorem witness_ArmAccepted :
    base.Takes (fr [1]) ∧ (fr [1]).payload = [1] ∧ (1 : Byte).getLsbD base.bus.own.val = true ∧
      base.session.state.runs = false ∧ base.session.draft.firstBad base.frontEnd = none ∧
      (let part := fun (i c : Nat) => emptyPart 1 false .ok i c
       let e : AskEntry := { ask 7 1 with serving := true, parts := [part 0 0, part 1 27], sent := 1 }
       let s := asked [e]
       s.Takes (fr [1]) ∧ e ∈ s.asks.table ∧ e.own = false ∧ e.parts[e.sent]?.map (·.first) = some 27) ∧
      (withQueue [entry 1 (.askPart 7) 11, entry 2 .session 13] none).Takes (fr [1]) :=
  ⟨⟨rfl, rfl⟩, rfl, rfl, rfl, by decide +kernel, ⟨⟨rfl, rfl⟩, by decide +kernel⟩, rfl, rfl⟩

theorem witness_HaltCutsTheSegment :
    (base.Takes (fr []) ∧ base.session.state.runs = false) ∧
      filling.Takes (fr []) ∧ filling.session.state.runs = true ∧ filling.store.offers = [] ∧
        filling.store.current = some { seg := 0, start := 1000, taken := some 1000 } :=
  ⟨⟨⟨rfl, rfl⟩, rfl⟩, ⟨rfl, rfl⟩, rfl, rfl, rfl⟩

theorem witness_StageTimerExpires :
    let w := fun (fires : Bool) => ({ filling with
      sequencer := { filling.sequencer with
        timer := some 1000
        stages := some (Vector.replicate 4 { Stage.default with timeout := 3, timeoutFires := fires }) } } : State)
    let all : State := { handing with mark := { handing.mark with
      cfg := some { role := .lead, sense := .all, hold := 16 }, state := .hold } }
    let gone : State := { base with mark := handing.mark }
    (∀ b, (w b).sequencer.state = .running ∧ (w b).sequencer.timer = some 1000 ∧ notAfter 1000 (w b).time = true ∧
      (w b).sequencer.noticeWaiting = false ∧
      ((w b).sequencer.stages.map fun v => (vget v (w b).sequencer.stage).timeoutFires) = some b ∧
      (w b).frontEnd.lastBoundary = some 1000 ∧ (w b).session.k = some 0) ∧
    (gone.store.current = none ∧ gone.mark.handed = some fired ∧ gone.pending = [] ∧ gone.dueList = []) ∧
    (handing.mark.state = .watch ∧ handing.mark.handed = some fired ∧ handing.dueList = [] ∧
      handing.bus.link.silent = false ∧ (handing.header 0).state = .filling) ∧
    (all.mark.state = .hold ∧ all.mark.handed = some fired ∧ all.dueList = []) := by
  decide +kernel

theorem witness_RunningStageCounts :
    let q := fun (n count : Nat) (fires : Bool) => ({ filling with
      sequencer := { filling.sequencer with
        count := count
        stages := some (Vector.replicate 4 { Stage.default with n := n, satisfiedFires := fires }) } } : State)
    let e : Element := { boundary := 1004, levels := 1, glitch := 0 }
    ((q 2 0 true).SessionInv ∧ (q 2 0 true).store.current.isSome = true ∧ ((q 2 0 true).header 0).state = .filling) ∧
    ((q 2 0 true).sequencer.state = .running ∧ (q 2 0 true).sequencer.counts e.boundary = true ∧ 0 + 1 < 2) ∧
    ((q 2 1 true).sequencer.occurs (.edge 0xFFFF .either) e = true ∧
      (q 2 1 true).sequencer.occurs (.edge 0xFFFF .either) { e with levels := 0 } = false ∧ (1 + 1 : Nat) = 2) ∧
    (let late := { (q 2 0 true).sequencer with entry := .atBoundary 1004 }
     late.state = .running ∧ late.counts e.boundary = false ∧ { late with entry := .atTick }.counts e.boundary = true ∧
       post.sequencer.state = .parked ∧ Sequencer.reset.state = .stopped) ∧
    (q 1 0 false).sequencer.stage.val < 3 ∧
      { (q 1 0 false).sequencer with stage := 2 }.stage.val < 3 :=
  ⟨⟨filling_sessionInv, rfl, by decide +kernel⟩, by decide +kernel⟩

/-- A stage that fired with a PATTERN, its fire still handed over; and the window of a LEAD open. -/
theorem witness_RunningStageCounts_fired :
    let q := fun (c : Cond) (m : MarkUnit) => ({ filling with
      mark := m
      sequencer := { filling.sequencer with
        state := .fired, stages := some (Vector.replicate 4 { Stage.default with cond := c }) } } : State)
    let window := fun (held : Bool) => { watching.mark with state := .opened, closing := some 1256, heldOpen := held }
    let truth := fun (levels : ChanSet) => (List.finRange 16).all fun c =>
      !chanBit 1 c || chanBit levels c == chanBit 1 c
    ((q (.pattern 1 1) handing.mark).sequencer.state = .fired ∧
      (q (.pattern 1 1) handing.mark).sequencer.stages.isSome = true ∧
      (q (.pattern 1 1) handing.mark).mark.handed = some fired ∧
      watching.mark.handed = none ∧ watching.mark.state ≠ .opened) ∧
    (∀ held, (window held).handed = none ∧ (window held).state = .opened ∧ (window held).cfg.isSome = true ∧
      (window held).closing = some 1256 ∧ (window held).heldOpen = held) ∧
    (truth 1 = true ∧ truth 2 = false ∧ earlier (after 1004 (16 * 16)) 1256 = false ∧
      earlier (after 996 (16 * 16)) 1256 = true) := by
  decide +kernel

theorem witness_OccurrencesOfConditions :
    let q := fun (n : Nat) => ({ filling with
      sequencer := { filling.sequencer with
        stages := some (Vector.replicate 4
          { Stage.default with cond := .cue 31, n := n, satisfiedFires := true }) } } : State)
    let nexts := { Stage.default with cond := .cue 31, n := 1, satisfiedFires := false }
    (nexts.satisfiedFires = false ∧ (1 : Fin 4).val = (0 : Fin 4).val + 1 ∧ (3 : Fin 4).val = (2 : Fin 4).val + 1) ∧
    (q 1).sequencer.state = .running ∧ (q 1).sequencer.counts 1004 = true ∧ (31 : BitVec 5).toNat = 31 ∧
      (q 2).sequencer.count + 1 < 2 ∧ (q 1).sequencer.count + 1 = 1 ∧ (q 1).sequencer.counts 996 = false := by
  decide +kernel

theorem witness_DecoderUnitsCompleteWords :
    let x : I2cSt := { inside := true, addressNext := true, count := 0, value := 0, first := 0
                       half := { last := none, shortest := none } }
    let f : UartFrame := { start := 1000, next := 9, value := 5, ones := 2, parityBad := false, firstStopBad := false
                           sawIdle := true }
    let due := fun (i : Nat) => after f.start ((2 * i + 1) * 1600 / 32)
    let bmc : BmcSt := { phase := .hunt 0 false 0, lastTransition := none, idleFound := false, halfPending := none }
    (base.decoders.running = false ∧ hunting.decoders.running = true ∧ hunting.session.active.isSome = true ∧
      hunting.session.k = some 0 ∧ (vget hunting.decoders.units 1).cfg.isSome = true ∧
      (vget (hunting.decoders.arm Plan.default).units 1).cfg.isSome = true ∧
      (vget (hunting.decoders.arm Plan.default).units 1).assembly = .fresh) ∧
    (x.inside = true ∧ x.count = 0) ∧
      (chanBit 3 0 = true ∧ chanBit 1 0 = true ∧ chanBit 3 1 = true ∧ chanBit 1 1 = false ∧ chanBit 0 0 = false ∧
        0 < { x with count := 3 }.count ∧ { x with inside := false }.inside = false) ∧
      (notAfter (after 1000 (2 * 1600 / 16)) 1200 = true ∧ notAfter (after 1000 (2 * 1600 / 16)) 1199 = false) ∧
      (notAfter (due 9) 1949 = false ∧ notAfter (due 9) 1950 = true ∧ notAfter (due 10) 1950 = false ∧
        f.next + 1 = 1 + 8 + 0 + 1 ∧ 1 ≤ f.next) ∧
      (notAfter (due 3) 1349 = false ∧ notAfter (due 3) 1350 = true ∧ { f with next := 3 }.next + 1 < 1 + 8 + 0 + 1 ∧
        notAfter (due 4) 1350 = false ∧ { f with next := 0 }.next = 0) ∧
      (bmc.lastTransition = none ∧ { bmc with lastTransition := some 0, idleFound := true }.idleFound = true) ∧
      (chanBit 1 0 ≠ chanBit 0 0 ∧ chanBit 0 0 ≠ !false ∧ SelState.selected ≠ .none) ∧
      (chanBit 0 0 ≠ chanBit 1 0 ∧ chanBit 1 0 = !false ∧ 7 + 1 = 8 ∧ (100 : Int) < tdiff 1101 1000) ∧
      ((10 : Int) ≤ tdiff 1010 1000 ∧ tdiff 1010 1000 ≤ 14 ∧ (20 : Int) ≤ tdiff 1020 1000 ∧ tdiff 1020 1000 ≤ 28 ∧
        (28 : Int) < tdiff 1029 1000 ∧ 16 ≤ 16) := by decide +kernel

theorem witness_FirstMatchingEntryRoutes :
    let e := { FilterEntry.default with enabled := true, decoders := 15, kinds := 0xFFFF, v2 := 0xFFFF }
    let v := vset (Vector.replicate 24 FilterEntry.default) 23 e
    { base.words with filters := some v }.filters = some v ∧
      ((vget v 23).enabled = true ∧ (vget v 23).decoders.getLsbD 0 = true ∧
        (vget v 23).kinds.getLsbD WKind.data.code = true ∧ (vget v 23).v1 ≤ 7 ∧ 7 ≤ (vget v 23).v2) ∧
      (∀ j, j < 23 → (vget v j).enabled = false) ∧ (vget v 23).cue = false ∧ { e with cue := true }.cue = true := by
  decide +kernel

theorem witness_OfferedWordStored :
    let base0 : StationTime := (filling.header 0).base
    (earlier 999 base0 = true ∧ earlier 1000 base0 = false) ∧
      ([] : List Word).length < (base.words.arm Plan.default 0).qa.capacity ∧
      (base.words.qa.capacity ≤ base.words.qa.words.length ∧ base.words.qa.capacity = 0) ∧
      (let x := { base.words.qa with
         capacity := 1, overwrite := true
         words := [word] }
       x.capacity ≤ x.words.length ∧ x.overwrite = true ∧ 0 < x.capacity ∧ x.fed = 0 ∧ x.words.length = 1 ∧
         { x with fed := 1 }.fed ≠ 0 ∧ x.feed.state = .off) ∧
      (let fed := fun (st : FeedState) (level : BitVec 2) => { (base.words.arm Plan.default 0).qa.feed with
         cfg := some { enabled := true, target := none, levelCode := level, timeout := 16 }, state := st }
       (∀ st ∈ [FeedState.quiet, .collecting, .draining], ∀ n ∈ [0, 1], (fed st n).cfg.isSome = true ∧
         (fed st n).state = st ∧ (fed st n).returned = []) ∧
       [1, 4, 8, 16].getD (0 : BitVec 2).toNat 16 = 1 ∧ [1, 4, 8, 16].getD (1 : BitVec 2).toNat 16 = 4) := by
  decide +kernel

theorem witness_SentFrameIsReadBack : { halt with payload := List.replicate 60 0xFF }.payload.length ≤ 60 := by decide

theorem witness_GoodFrameHeard :
    (Instr.frame? (.arm { fr [1] with dst := 7 }) = some { fr [1] with dst := 7 } ∧ base.canReceive = true ∧
      base.isFor { fr [1] with dst := 7 } = false) ∧
      Instr.frame? (.wordsNote (fr [])) = some (fr []) := ⟨⟨rfl, rfl, rfl⟩, rfl⟩

theorem witness_PlaceGoesToLowestKind :
    let s : State := { base with peers := { base.peers with rollDue := some { since := 0, answer := false } } }
    let d := fun (l : List TxFrame) => ({ base with words := base.words.setQueue .a { base.words.qa with
      words := [word]
      feed := { cfg := some { enabled := true, levelCode := 0, timeout := 1, target := none }, state := .draining
                timer := none, returned := l, seq := 3, since := 4 } } } : State)
    (s.KindInv ∧ s.bus.hasRoom = true ∧ s.waits ≠ []) ∧
      ∀ l ∈ [[], [halt]], (d l).bus.hasRoom = true ∧
        (firstWaiting (d l).waits).map (fun w => (w.kind, w.since, w.pick)) = some (14, 4, .feed .a) ∧
        ((d l).words.queue .a).feed.state = .draining ∧ ((d l).words.queue .a).feed.cfg.isSome = true := by
  refine ⟨⟨⟨by decide, ?_, ?_, ?_, ?_, ?_⟩, rfl, by decide +kernel⟩, by decide +kernel⟩
  · intro e he
    cases he
  · intro e he
    cases he
  · intro q
    cases q <;> intro f hf <;> cases hf
  · intro e he
    cases he
  · intro r hr
    cases hr

/-- A TIME_NOTE is due. -/
def noteDue (s : State) : State := { s with peers := { s.peers with noteDue := true } }

theorem witness_DueTimeNotePlaced :
    (noteDue base).peers.noteDue = true ∧
      LinkState.detached.silent = true ∧
      (base.bus.link.silent = false ∧ base.bus.queuedTimeNote = none ∧ base.bus.queue.length < 8) ∧
      ((withQueue [entry 1 .timeNote 4] none).bus.queuedTimeNote = some (entry 1 .timeNote 4) ∧
        (withQueue [entry 1 .timeNote 4] none).bus.onWire ≠ some 1 ∧
        (withQueue [entry 1 .timeNote 4] (some 1)).bus.onWire = some 1) ∧
      ((withQueue (List.replicate 8 (entry 1 .markUnit 0)) none).bus.queuedTimeNote = none ∧
        8 ≤ (List.replicate 8 (entry 1 .markUnit 0)).length ∧
        (∀ e ∈ List.replicate 8 (entry 1 .markUnit 0), e.frame.kind ≤ (timeNoteFrame 0 none).kind)) ∧
      ((withQueue full (some 1)).bus.queuedTimeNote = none ∧
        (withQueue full (some 1)).bus.queue =
          (entry 1 .markUnit 0 :: entry 2 .viewStop 5 :: List.replicate 5 (entry 3 .session 13)) ++
            entry 9 .rollCall 15 :: [] ∧
        8 ≤ full.length ∧
        (∀ x ∈ entry 1 .markUnit 0 :: entry 2 .viewStop 5 :: List.replicate 5 (entry 3 .session 13), x.id ≠ 9) ∧
        (timeNoteFrame 0 none).kind < (entry 9 .rollCall 15).frame.kind ∧
        (withQueue full (some 1)).bus.onWire ≠ some 9) := by decide +kernel

theorem witness_OwnFrameResults :
    let wire := fun (o : Origin) => withQueue [entry 1 o 4, entry 2 .session 13] (some 1)
    (∀ o ∈ [Origin.timeNote, .session, .feed .a, .askPart 7, .viewAsk (laneTag 0 0)],
      (wire o).bus.wireFrame = some (entry 1 o 4) ∧ (wire o).bus.link.takesPart = true) ∧
    ((wire .timeNote).peers.noteWaiting = false ∧ (wire .timeNote).bus.score ≤ 223 ∧
      (wire .timeNote).bus.queue.length ≤ 8 ∧
      (∀ x ∈ (wire .timeNote).bus.queue, x.origin = .timeNote → x.id = 1) ∧
      { (wire .timeNote).peers with noteWaiting := true }.noteWaiting = true) ∧
    ((∃ x ∈ (asked [ask 7 1]).asks.table, x.id = 7) ∧ (∀ x ∈ (asked [ask 6 1]).asks.table, x.id ≠ 7) ∧
      (asked [ask 7 1]).view.pass = none) ∧
    (laneTag fetching.view.generation 0 = laneTag 0 0 ∧ vget fetching.view.fetch 0 = some (lane 0 .pending) ∧
      (fetching.view.pass.any fun p => p.zero.isSome && (vget p.lanes 1).used) = true ∧ (0 : Fin 16) ≠ 1 ∧
      vget fetching.view.fetch 1 = some (lane 1 .pending)) := by
  decide +kernel

/-- `base`, or another state, with a score. -/
def scored (s : State) (n : Nat) : State := { s with bus := { s.bus with score := n, link := linkOfScore n } }

theorem witness_FrameErrorsScored :
    let own := fun (o : Origin) (n : Nat) => scored (withQueue [entry 1 o 13, entry 2 .session 13] (some 1)) n
    (∀ o ∈ [Origin.timeNote, .session, .feed .a, .askPart 7, .viewAsk (laneTag 0 0)], ∀ n ∈ [215, 216],
      (own o n).bus.link.takesPart = true ∧ (own o n).bus.wireFrame = some (entry 1 o 13)) ∧
    (min 255 ((own .session 215).bus.score + 8) < 224 ∧ 224 ≤ min 255 ((own .session 216).bus.score + 8)) ∧
    ((own .timeNote 215).peers.noteWaiting = false ∧ (own .timeNote 215).bus.queue.length ≤ 8 ∧
      { base.peers with noteWaiting := true }.noteWaiting = true ∧
      ∀ x ∈ (own .timeNote 215).bus.queue, x.origin = .timeNote → x.id = 1) ∧
    ((∃ x ∈ (asked [ask 7 1]).asks.table, x.id = 7) ∧ (∀ x ∈ (asked [ask 6 1]).asks.table, x.id ≠ 7) ∧
      (asked [ask 7 1]).view.pass = none) ∧
    (laneTag fetching.view.generation 0 = laneTag 0 0 ∧ vget fetching.view.fetch 0 = some (lane 0 .pending) ∧
      (fetching.view.pass.any fun p => p.zero.isSome && (vget p.lanes 1).used) = true ∧ (0 : Fin 16) ≠ 1 ∧
      vget fetching.view.fetch 1 = some (lane 1 .pending)) ∧
    (∀ l ∈ [LinkState.detached, .duplicate], l.silent = true ∧
      { base with bus := { base.bus with link := l } }.canReceive = true) ∧
    (∀ n ∈ [222, 223], (scored base n).bus.link.takesPart = true ∧ (scored base n).canReceive = true) ∧
    min 255 ((scored base 222).bus.score + 1) < 224 ∧ 224 ≤ min 255 ((scored base 223).bus.score + 1) := by
  decide +kernel

theorem witness_LineAndLinkStates :
    let q := withQueue [entry 1 .session 13] none
    let bus := fun (b : Bus) => ({ base with bus := b } : State)
    ((bus { base.bus with line := some .wait }).bus.line = some .wait) ∧
      (q.bus.line = some .free ∧ q.bus.queue = entry 1 .session 13 :: [] ∧ q.bus.link.takesPart = true ∧
        q.bus.onWire = none) ∧
      ((bus { base.bus with line := some .frame, errorFound := true }).bus.line = some .frame ∧
        base.bus.link ≠ .joining) ∧
      ((bus { base.bus with inBreak := true }).bus.inBreak = true) ∧
      ((bus { State.reset.bus with inBreak := true }).bus.inBreak = true ∧
        (bus { State.reset.bus with inBreak := true }).bus.link = .joining) ∧
      (State.reset.bus.link = .joining ∧ State.reset.bus.inBreak = false ∧ State.reset.peers.rollDue = none ∧
        State.reset.bus.rollQueued = false) ∧
      ((bus { base.bus with link := .detached, rejoin := some 1000 }).bus.rejoin = some 1000 ∧
        notAfter 1000 base.time = true ∧ base.peers.rollDue = none ∧ base.bus.rollQueued = false) := by decide +kernel

theorem witness_BusBreakClears :
    let waiting : State := { base with peers := { base.peers with noteWaiting := true } }
    let away : State := { base with bus := { base.bus with link := .detached, rejoin := some 2000 } }
    (filling.bus.inBreak = false ∧ filling.bus.link ≠ .detached ∧ filling.peers.noteWaiting = false ∧
      filling.store.offers = []) ∧
      (filling.session.state.runs = true ∧ filling.store.current.isSome = true) ∧
      base.session.state.runs = false ∧
      (waiting.bus.inBreak = false ∧ waiting.store.offers = [] ∧ waiting.peers.noteWaiting = true ∧
        waiting.bus.link.silent = false) ∧
      (away.bus.inBreak = false ∧ away.store.offers = [] ∧ away.peers.noteWaiting = false ∧
        away.bus.link = .detached) := by decide +kernel

/-- Station 1's record with a chain at sequence 6. -/
def chained (current base0 : Option Anchor) (valid : Bool) : State := { base with
  peers := { base.peers with peers := vset base.peers.peers 1 { Peer.empty with
    present := true, chain := some { seq := 6, stamp := 10736879 }, current := current, base := base0
    skewValid := valid } } }

theorem witness_TimeNoteFormsAnchor :
    let note := fr ([7, 1] ++ beBytes 6 10485830)
    let a : Anchor := { remote := 7340100, loc := 7590834 }
    let near : Anchor := { remote := 10485830 - 2 ^ 20 + 1, loc := 0 }
    (base.Takes note ∧ note.src ≠ base.bus.own ∧ note.payload.length = 8) ∧
      ((chained none none false).peer 1).chain = some { seq := 6, stamp := 10736879 } ∧
      (6 : Byte) = byteAt note.payload 0 - 1 ∧ (byteAt note.payload 1).getLsbD 0 = true ∧
      (6 : Byte) ≠ byteAt (fr [8, 1]).payload 0 - 1 ∧
      ((chained (some a) (some a) false).peer 1).current.isSome = true ∧
      2 ^ 20 ≤ tdiff (BitVec.ofNat 48 (field note.payload 2 6)) a.remote ∧
      tdiff (BitVec.ofNat 48 (field note.payload 2 6)) near.remote < 2 ^ 20 :=
  ⟨⟨⟨rfl, rfl⟩, by decide, rfl⟩, by decide +kernel⟩

theorem witness_RollCallTaken :
    let call := fun (l : Byte) => [l, 0, 0, 20, 0x0B, 0x16]
    let d : RollDetails := { banks := 0, panel := false, cadence := 20, part := 0x0B16 }
    (base.Takes (fr (call 0)) ∧ base.Takes (ownFr (call 0))) ∧
      readRollCall (call 0) = some (false, d) ∧ readRollCall (call 128) = some (true, d) ∧
      (fr (call 0)).src ≠ base.bus.own ∧ (ownFr (call 0)).src = base.bus.own ∧ base.bus.link ≠ .duplicate ∧
      (base.peer 1).present = false ∧ ((chained none none false).peer 1).present = true ∧ base.peers.rollDue = none ∧
      base.bus.rollQueued = false := ⟨⟨⟨rfl, rfl⟩, rfl, rfl⟩, by decide +kernel⟩

theorem witness_MarkNotesAndAbsence :
    let note := fun (k : Byte) => fr (k :: List.replicate 9 0)
    let gone : State := { base with peers := { base.peers with
      peers := vset base.peers.peers 1 { Peer.empty with present := true, timer := some 1000 } } }
    (post.Takes (note 7) ∧ (note 7).src ≠ post.bus.own ∧ (note 7).payload.length = 10) ∧
      ((post.header 0).trigTime.isSome = true ∧ (post.header 0).cause = some (.mark none)) ∧
      (post.header 7).trigTime = none ∧ 7 < (byteAt (note 8).payload 0).toNat ∧
      ((gone.peer 1).present = true ∧ (gone.peer 1).timer = some 1000 ∧ notAfter 1000 gone.time = true) :=
  ⟨⟨⟨rfl, rfl⟩, by decide, rfl⟩, by decide +kernel⟩

theorem witness_ForwardConversion : (-8192 : Int) ≤ 8192 ∧ (8192 : Int) ≤ 8192 ∧ (-1 : Int) ≤ 0 := by decide

/-- A REDUCE_ASK from station 1 with tag 7. -/
def askFr : RxFrame := fr (7 :: List.replicate 16 0)

theorem witness_AskTaken :
    (base.Takes askFr ∧ askFr.src ≠ base.bus.own ∧ askFr.payload.length = 17) ∧
      ((asked [ask 1 6, ask 2 7]).asks.table = [ask 1 6] ++ ask 2 7 :: [] ∧ (ask 2 7).own = false ∧
        (ask 2 7).asker = askFr.src ∧ (ask 2 7).tag = byteAt askFr.payload 0 ∧ (ask 1 6).tag ≠ 7 ∧ (1 : Nat) ≠ 2 ∧
        (ask 2 7).serving = false ∧ { ask 2 7 with serving := true }.serving = true) ∧
      ((asked (List.replicate 7 (ask 1 6))).asks.table.length < 8 ∧
        8 ≤ (asked (List.replicate 8 (ask 1 6))).asks.table.length) :=
  ⟨⟨⟨rfl, rfl⟩, by decide, rfl⟩, by decide +kernel⟩

theorem witness_StatusAskAndStop :
    let r := fun (sel : Selector) => ({ asker := 1, selector := sel, since := 0, composed := none } : StatusReply)
    let due := fun (sel : Selector) => ({ base with asks := { AskService.reset with status := [r sel] } } : State)
    (base.Takes (fr [7]) ∧ (fr [7]).payload.length = 1 ∧ (fr [7]).src ≠ base.bus.own) ∧
      (r .other ∈ { AskService.reset with status := [r .other] }.status ∧ (r .other).asker = (fr [7]).src) ∧
      base.asks.status = [] ∧ base.asks.table = [] ∧
      (ask 2 7 ∈ (asked [ask 2 7]).asks.table ∧ (ask 2 7).own = false ∧ (ask 2 7).asker = (fr [7]).src ∧
        (ask 2 7).tag = byteAt (fr [7]).payload 0) ∧
      ∀ sel ∈ [Selector.summary, .latches, .other], (due sel).bus.hasRoom = true ∧ (due sel).asks.status = [r sel] ∧
        (firstWaiting (due sel).waits).map (fun w => (w.kind, w.since, w.pick)) = some (13, 0, .status (r sel)) :=
  ⟨⟨⟨rfl, rfl⟩, rfl, by decide⟩, by decide +kernel⟩

theorem witness_EngineTakesOldest_place_and_boxes :
    (let w : Fetch := { lane 3 .waiting with station := 0 }
     let r := List.replicate 3 { ask 2 7 with own := true }
     let o : State := { base with
       asks := { AskService.reset with table := ask 1 6 :: r }
       view := { fetching.view with fetch := vset fetching.view.fetch 3 (some w) } }
     o.session.state = .idle ∧ (o.view.pass.map (·.zero.isSome)) = some true ∧ vget o.view.fetch 3 = some w ∧
       w.state = .waiting ∧ w.station = o.bus.own ∧ r.length < 8 ∧ (r.filter (·.own)).length < 4 ∧
       (∀ m, m ≠ 3 → (vget o.view.fetch m).all fun y => y.station != o.bus.own || y.state != .waiting) ∧
       (∀ m, (vget fetching.view.fetch m).all fun y => y.station != o.bus.own || y.state != .waiting)) ∧
    (let late := { word with start := 1003, stop := 1009 }
     let q : State := { done .complete with words := { base.words with qa := { base.words.qa with words := [late, word] } } }
     let e := { ask 1 6 with words := true, start := 1000, w := 4 }
     (∀ x ∈ q.words.qa.words, (x.start - 1000).toNat < 2 ^ 47 ∧ (x.stop - 1000).toNat < 2 ^ 47) ∧
       (q.askBoxes e 0 0).map (fun b => (b.first, b.last, b.dense, b.value)) = [(0, 2, true, 2)]) := by
  decide +kernel

theorem witness_EngineTakesOldest :
    let s := fun (st : State) => ({ st with asks := { AskService.reset with table := [ask 1 6, ask 2 7] } } : State)
    ((s base).asks.table = ask 1 6 :: [ask 2 7] ∧
      (∀ x ∈ [ask 1 6, ask 2 7], x.serving = false) ∧ (ask 1 6).own = false ∧ (ask 2 7).id ≠ (ask 1 6).id ∧
      (s base).view.pass = none ∧ (s base).session.state = .idle) ∧
    (∀ st ∈ [SegState.empty, .filling, .post, .complete, .cut],
      (s (done st)).session.state ≠ .idle ∧ (s (done st)).session.active = some Plan.default ∧
        ((s (done st)).header ⟨(ask 1 6).seg.toNat % 8, Nat.mod_lt _ (by decide)⟩).state = st) ∧
    ((ask 1 6).seg.toNat < 2 ^ Plan.default.general.segCode.toNat ∧ (ask 1 6).index.toNat < 16 ∧
      1 ≤ (ask 1 6).columns ∧ (ask 1 6).columns ≤ 320) ∧
    ((done .complete).store.layout.isSome = true ∧ (ask 1 6).words = false ∧ { ask 1 6 with words := true }.words = true) ∧
    (let e : AskEntry := { ask 1 (laneTag 0 0) with own := true, asker := 0, columns := 280 }
     let x : Fetch := { lane 0 .pending with station := 0 }
     let o := fun (st : State) => ({ st with
       asks := { AskService.reset with table := [e, ask 2 7] }
       view := { fetching.view with fetch := vset fetching.view.fetch 0 (some x) } } : State)
     (∀ st ∈ [base, done .empty, done .post, done .complete],
       (o st).asks.table = e :: [ask 2 7] ∧ (o st).bus.own = 0 ∧ vget (o st).view.fetch 0 = some x ∧
         vget (o st).view.fetch 1 = some (lane 1 .pending) ∧ e.tag = laneTag (o st).view.generation 0 ∧
         ∀ n, (vget (o st).view.fetch n).all fun z => z.station != 0 || z.state != .waiting) ∧
     e.own = true ∧ (∀ z ∈ [e, ask 2 7], z.serving = false) ∧ (ask 2 7).id ≠ e.id ∧ e.columns = 280 ∧
       x.state = .pending ∧ x.station = 0 ∧ x.decoder = e.words ∧ x.nextPart = 0 ∧ x.nextCol = 0 ∧ x.runs = [] ∧
       x.boxes = [] ∧ (fetching.view.pass.any fun p => p.zero.isSome && (vget p.lanes 1).used) = true) := by
  decide +kernel

theorem witness_ColumnBoundariesIncrease :
    let r := fun (levels : ChanSet) => { staged.rcd with levels := levels }
    let lo := later (900 : StationTime) 1000
    (earlier lo (sooner 1100 2000) = true ∧ earlier (later 1100 1000) (sooner 1100 2000) = false) ∧
      ([(1000, r 0), (1010, r 1)] = [] ++ ((1000 : StationTime), r 0) :: (1010, r 1) :: [] ∧
        earlier lo 1010 = true ∧ earlier 1010 (sooner 1100 2000) = true ∧ chanBit 0 0 ≠ chanBit 1 0) ∧
      (notAfter 1000 lo = true ∧ notAfter 1010 lo = false ∧ 0 < 1) := by decide +kernel

theorem witness_ViewPartTaken :
    let n : State := { base with bus := { base.bus with panel := false } }
    (base.Takes (fr (3 :: List.replicate 32 0)) ∧ base.Takes (fr (4 :: List.replicate 17 0)) ∧ base.bus.panel = true) ∧
      (n.Takes (fr (3 :: List.replicate 32 0)) ∧ n.Takes (fr [5]) ∧ n.Takes (fr [3]) ∧ n.bus.panel = false ∧
        (fr [3]).bcast = false ∧ n.Takes { fr [3] with bcast := true }) ∧
      (((4 : Byte).toNat = 4 ∧ (List.replicate 17 (0 : Byte)).length = 17) ∧
        ¬ ((3 : Byte).toNat ≤ 3 ∧ ([] : List Byte).length = 32 ∨ (3 : Byte).toNat = 4 ∧ ([] : List Byte).length = 17)) :=
  ⟨⟨⟨rfl, rfl⟩, ⟨rfl, rfl⟩, rfl⟩, ⟨⟨rfl, rfl⟩, ⟨rfl, rfl⟩, ⟨rfl, rfl⟩, rfl, rfl, rfl, rfl⟩, by decide⟩

theorem witness_RenderStarts :
    let closure : RxFrame := fr (2 :: List.replicate 40 0)
    let laned : State := { base with view := { base.view with
      lanes := vset base.view.lanes 15 { Lane.unused with used := true, station := 1 } } }
    let ends : State := { done .post with store := { (done .post).store with
      fifo := [staged]
      headers := vset filling.store.headers 0
        { (done .post).header 0 with ending := some .complete, trigTime := some 1000 } } }
    let last : Peer := { Peer.empty with present := true, current := some { remote := 0, loc := 0 }
                                         lastFire := some { seg := 0, stamp := 900 } }
    let fires : State := { laned with
      view := { laned.view with window := { laned.view.window with zero := 1 } }
      peers := { laned.peers with peers := vset laned.peers.peers 1 last } }
    let due : State := { post with
      time := 1004
      store := { post.store with
        headers := vset post.store.headers 0 { post.header 0 with deadline := some 1004 } } }
    (laned.Takes (fr [5]) ∧ laned.Takes closure ∧ filling.Takes (fr [])) ∧ laned.bus.panel = true ∧
      readClosure closure.payload = some (BitVec.ofNat 8 laned.view.window.seg.val) ∧
      readClosure (fr (2 :: 0 :: 0 :: 1 :: List.replicate 37 0)).payload ≠
        some (BitVec.ofNat 8 laned.view.window.seg.val) ∧
      ((vget laned.view.lanes 15).used = true ∧ (vget laned.view.lanes 15).station = closure.src) ∧
      (∀ n, (vget base.view.lanes n).used = false) ∧
      ((laned.header laned.view.window.seg).trigTime = none ∧ laned.view.window.zero = laned.bus.own) ∧
      (ends.store.fifo = staged :: [] ∧ ends.store.writeWait = 0 ∧ (ends.header 0).count < 32768 ∧
        (ends.header 0).ending = some .complete ∧ staged.seg = ends.view.window.seg ∧
        { ends.view.window with seg := 1 }.seg ≠ staged.seg ∧ (ends.header 0).trigTime = some 1000) ∧
      (fires.view.window.zero ≠ fires.bus.own ∧ (fires.peer 1).present = true ∧ (fires.peer 1).current.isSome = true ∧
        (fires.peer 1).lastFire = some { seg := 0, stamp := 900 }) ∧
      (filling.store.current = some { seg := 0, start := 1000, taken := some 1000 } ∧ filling.view.window.seg = 0 ∧
        filling.store.stagedOf 0 = 0 ∧ filling.session.state.runs = true ∧ filling.store.offers = [] ∧
        filling.bus.panel = true) ∧
      (due.store.current = some { seg := 0, start := 1000, taken := some 1000 } ∧ due.view.window.seg = 0 ∧
        due.store.stagedOf 0 = 0 ∧ due.time = due.frontEnd.nextBoundary ∧ due.frontEnd.changing = 0 ∧
        due.store.layout.isSome = true ∧ due.store.reference = some { time := 1000, levels := 0 } ∧
        (due.header 0).state = .post ∧ (due.header 0).deadline = some 1004 ∧ notAfter 1004 due.time = true ∧
        recordAt (period 2) { time := 1000, levels := 0 } (due.frontEnd.element due.time) = none) ∧
      laned.view.push.isSome = true ∧ { laned.view with push := none }.push = none :=
  ⟨⟨⟨rfl, rfl⟩, ⟨rfl, rfl⟩, rfl, rfl⟩, by decide +kernel⟩

theorem witness_ReplyPartsAssembled :
    let part := fun (o i c f : Byte) => [laneTag 0 0, o, i, 0, c, f, 1, 0, 9, 0]
    (fetching.Takes (fr (part 0 0 0 0)) ∧ fetching.bus.panel = true) ∧
      ((readPart false (part 0 0 0 0)).isSome = true ∧ (readPart false (part 1 0 0 1)).isSome = true ∧
        (readPart false (part 0 1 0 0)).isSome = true) ∧
      laneTag 0 0 = laneTag fetching.view.generation 0 ∧
      vget fetching.view.fetch 0 = some (lane 0 .pending) ∧ fetching.view.pass.isSome = true ∧
      vget fetching.view.fetch 1 = some (lane 1 .pending) ∧ (lane 0 .pending).station = (fr []).src ∧
      (lane 0 .pending).decoder = false ∧ (lane 0 .pending).reasks < 2 ∧ (lane 0 .pending).ask = none ∧
      { lane 0 .pending with ask := some halt }.ask.isSome = true ∧
      (lane 0 .pending).nextPart = 0 ∧ (lane 0 .pending).nextCol = 0 := ⟨⟨⟨rfl, rfl⟩, rfl⟩, by decide +kernel⟩

/-- A part at a station without a panel, of another generation, for a lane without an entry, and no part at all; and the
last lane that a pass waits for, with the port IDLE and with a push in progress. -/
theorem witness_ReplyPartsAssembled_others :
    let part := fun (tag o : Byte) => [tag, o, 0, 0, 0, 1, 0]
    let dark : State := { fetching with bus := { fetching.bus with panel := false } }
    let last : State := { fetching with view := { fetching.view with
      fetch := vset fetching.view.fetch 1 (some (lane 1 .done)) } }
    (dark.Takes (fr (part 0 0)) ∧ dark.bus.panel = false) ∧
      ((∀ tag ∈ [(0 : Byte), 15, 16], (readPart false (part tag 4)).map (·.tag) = some tag) ∧
        readPart false (part 0 9) = none ∧ readPart false [] = none) ∧
      ((0x10 : Byte).toNat / 16 ≠ fetching.view.generation.toNat ∧ (15 : Byte) = laneTag fetching.view.generation 15 ∧
        vget fetching.view.fetch 15 = none ∧ { fetching.view with pass := none }.pass = none) ∧
      ((last.view.pass.any fun p => p.zero.isSome && p.phase == .collecting && (List.finRange 16).all fun n =>
          !(vget p.lanes n).used || n == 0 || n == 1) = true ∧
        vget last.view.fetch 0 = some (lane 0 .pending) ∧ vget last.view.fetch 1 = some (lane 1 .done) ∧
        last.view.push.isSome = true ∧ { last.view with push := none }.push = none) :=
  ⟨⟨⟨rfl, rfl⟩, rfl⟩, by decide +kernel⟩

theorem witness_LaneTimersAndPushEnd :
    let v := fun (f g : Fetch) => ({ fetching with view := { fetching.view with
      fetch := vset (vset base.view.fetch 0 (some f)) 1 (some g) } } : State)
    let late := { lane 0 .pending with deadline := some 1000 }
    let again := { lane 0 .waiting with reaskAt := some 1000, ask := some halt }
    let finished := lane 1 .done
    (fetching.view.pass.any fun p => p.zero.isSome && p.phase == .collecting && (vget p.lanes 0).used &&
      (vget p.lanes 1).used && (List.finRange 16).all fun n => !(vget p.lanes n).used || n == 0 || n == 1) = true ∧
    (vget (v late (lane 1 .pending)).view.fetch 0 = some late ∧ late.state = .pending ∧ late.deadline = some 1000 ∧
      vget (v late (lane 1 .pending)).view.fetch 1 = some (lane 1 .pending)) ∧
    (vget (v late finished).view.fetch 1 = some finished ∧ finished.state = .done ∧ fetching.view.push = some 0 ∧
      { fetching.view with push := none }.push = none) ∧
    (vget (v again (lane 1 .pending)).view.fetch 0 = some again ∧ again.state = .waiting ∧
      again.reaskAt = some 1000 ∧ again.ask = some halt ∧ base.bus.link.silent = false ∧
      LinkState.detached.silent = true) ∧
    notAfter 1000 base.time = true ∧ base.view.push = some 0 ∧ 153600 ≤ ((153600 : StationTime) - 0).toNat ∧
    (base.view.pass = none ∧ (fetching.view.pass.map fun p => { p with phase := .complete }).isSome = true) ∧
    ((fetching.view.pass.any fun p => (p.overlay 20 41).isNone) = true ∧ finished.decoder = false) ∧
    (let win := { base.view.window with cursorA := some 9, cursorB := some 10, w := 1, offset := -11 }
     let p := fetching.view.pass.map fun p => { p with window := win }
     win.cursorA = some 9 ∧ win.cursorB = some 10 ∧
       p.map (fun p => [p.overlay 16 49, p.overlay 17 50, p.overlay 18 50, p.overlay 18 51, p.overlay 19 51]) =
         some [some 2, some 2, none, some 1, none]) ∧
    (let box : Box := { first := 3, last := 20, kind := 0, value := 0xA5, clipL := true, clipR := false, error := false
                        dense := false, more := false }
     let done := { lane 1 .done with decoder := true, boxes := [box] }
     done.boxes = [] ++ box :: [] ∧ done.state = .done ∧ done.decoder = true ∧ box.first ≤ 3 ∧ 3 ≤ box.last ∧
       ∀ y ∈ done.boxes, (21 : Nat) < y.first ∨ y.last < 21) ∧
    (fetching.view.pass.map fun p => ((vget p.lanes 0).used, (vget p.lanes 2).used)) = some (true, false) ∧
    (base.bus.panel = true ∧ ((1000 : StationTime) - 0).toNat < 153600) := by
  decide +kernel

end Sys2Proof.Tests
end

section
/-! PROOFS. About the front end: the comparators (R3), the deglitch filter (R5), sample periods and boundaries (R6,
R12), and what keeps the sampling invariant of the front end. -/

namespace Sys2Proof.Machine

/-! ## Comparators (R3) -/

/-- Half a hysteresis is never negative (1.2). -/
theorem halfHysteresis_nonneg (code : BitVec 2) : 0 ≤ halfHysteresis code := by
  unfold halfHysteresis; split <;> decide

/-- The falling point of a bank is never above its rising point (R3). -/
theorem FrontEnd.fallingPoint_le_risingPoint (fe : FrontEnd) (b : Fin 2) : fe.fallingPoint b ≤ fe.risingPoint b := by
  have := halfHysteresis_nonneg (vget fe.switchHysteresis b)
  unfold FrontEnd.fallingPoint FrontEnd.risingPoint
  omega

/-- A LOW comparator goes HIGH exactly above the rising point (R3). -/
theorem FrontEnd.compare_of_low {fe : FrontEnd} {c : Chan} (h : chanBit fe.comparator c = false) :
    fe.compare c = true ↔ fe.risingPoint (bank c) < vget fe.probe c := by
  simp [FrontEnd.compare, h]

/-- A HIGH comparator goes LOW exactly below the falling point (R3). -/
theorem FrontEnd.compare_of_high {fe : FrontEnd} {c : Chan} (h : chanBit fe.comparator c = true) :
    fe.compare c = false ↔ vget fe.probe c < fe.fallingPoint (bank c) := by
  have := fe.fallingPoint_le_risingPoint (bank c)
  simp only [FrontEnd.compare, h, Bool.if_true_left, Bool.if_false_left, Bool.or_eq_false_iff, decide_eq_false_iff_not,
    Bool.and_true, Bool.not_eq_false', decide_eq_true_eq]
  omega

/-- An input that moves sets its own channel's comparator by the points of its bank, and no other (R3). -/
theorem FrontEnd.input_comparator (fe : FrontEnd) (ch c : Chan) (uv : Int) :
    chanBit (fe.input ch uv).comparator c =
      if c = ch then { fe with probe := vset fe.probe ch uv }.compare ch else chanBit fe.comparator c :=
  chanBit_setChan _ _ _ _

/-- Settles O16: the comparator of the channel that moved compares its input with the two points of its bank. -/
theorem comparatorFollowsInput : Obligations.ComparatorFollowsInput := by
  unfold Obligations.ComparatorFollowsInput
  intro ch uv s
  refine ⟨{ s with frontEnd := s.frontEnd.input ch uv }, rfl, rfl, fun c hc => ?_, fun hlow => ?_, fun hhigh => ?_⟩
  · simp [FrontEnd.input_comparator, hc]
  · simp [FrontEnd.input_comparator, FrontEnd.compare_of_low, hlow, FrontEnd.risingPoint]
  · simp [FrontEnd.input_comparator, FrontEnd.compare_of_high, hhigh, FrontEnd.fallingPoint]

/-! ## The deglitch filter (R5) -/

/-- A tick runs the front end's tick and nothing else on the front end. -/
@[simp] theorem State.tick_frontEnd (s : State) : s.tick.frontEnd = s.frontEnd.tick := by simp [State.tick]

/-- A change is due after a tick exactly in the third case of R5. -/
theorem FrontEnd.tick_changing (fe : FrontEnd) (c : Chan) :
    chanBit fe.tick.changing c =
      (fe.chanPresent c && chanBit fe.tick.registered c != chanBit fe.filtered c &&
        decide ((fe.deglitchOf c).toNat ≤ (vget fe.hold c).toNat)) := chanBit_chanSet _ c

/-- The hold count after a tick (R5). -/
theorem FrontEnd.tick_hold (fe : FrontEnd) (c : Chan) :
    vget fe.tick.hold c =
      if !fe.chanPresent c || !(chanBit fe.tick.registered c != chanBit fe.filtered c) then 0
      else if chanBit fe.tick.changing c then vget fe.hold c
      else vget fe.hold c + 1 := by
  rw [FrontEnd.tick_changing]
  exact vget_ofFn _ c

/-- A two-bit count below another one does not wrap when it goes up. -/
theorem toNat_add_one_of_lt {h n : BitVec 2} (hlt : h.toNat < n.toNat) : (h + 1).toNat = h.toNat + 1 := by
  bv_omega

/-- What FILTERED_LEVEL_CHANGE does to its own channel (R5, R8). -/
theorem FrontEnd.changeLevel_same (fe : FrontEnd) (ch : Chan) :
    chanBit (fe.changeLevel ch).filtered ch = chanBit fe.registered ch ∧
      vget (fe.changeLevel ch).hold ch = 0 ∧
      vget (fe.changeLevel ch).changes ch = (if vget fe.changes ch = 0 then 1 else 2) ∧
      chanBit (fe.changeLevel ch).changing ch = false := by
  simp [FrontEnd.changeLevel, chanBit_setChan]

/-- FILTERED_LEVEL_CHANGE touches no other channel (R5). -/
theorem FrontEnd.changeLevel_other (fe : FrontEnd) {ch c : Chan} (h : c ≠ ch) :
    chanBit (fe.changeLevel ch).filtered c = chanBit fe.filtered c ∧
      vget (fe.changeLevel ch).hold c = vget fe.hold c ∧
      vget (fe.changeLevel ch).changes c = vget fe.changes c ∧
      chanBit (fe.changeLevel ch).changing c = chanBit fe.changing c := by
  simp [FrontEnd.changeLevel, chanBit_setChan, vget_vset_other _ _ h, h]

/-- A change count that goes from 0 to 1 and from there to 2 rises by 1 and stops at 2 (R8). -/
theorem changeCount_rises : ∀ n : Fin 3, (if n = 0 then (1 : Fin 3) else 2).val = min 2 (n.val + 1) := by decide

/-- FILTERED_LEVEL_CHANGE where it is due. -/
theorem exec_filteredLevelChange_due {s : State} {ch : Chan} (h : chanBit s.frontEnd.changing ch = true) :
    exec (.filteredLevelChange ch) s = .next { s with frontEnd := s.frontEnd.changeLevel ch } := by
  simp [exec, execFilteredLevelChange, h]

/-- Settles O17: the tick decides the three cases by what it registers and by the hold count it finds, and the command
that is due in the third acts on its own channel alone. -/
theorem deglitchFilter : Obligations.DeglitchFilter := by
  unfold Obligations.DeglitchFilter
  refine ⟨fun s c hp => ?_, fun s ch hch => ?_⟩
  · simp only [State.tick_frontEnd]
    refine ⟨fun heq => ?_, fun hne hlt => ?_, fun hne hle => ?_⟩
    · simp [FrontEnd.tick_hold, FrontEnd.tick_changing, heq]
    · have hch : chanBit s.frontEnd.tick.changing c = false := by
        simp [FrontEnd.tick_changing, Nat.not_le.2 hlt]
      have hhold : vget s.frontEnd.tick.hold c = vget s.frontEnd.hold c + 1 := by
        simp [FrontEnd.tick_hold, hp, hne, hch]
      exact ⟨by rw [hhold, toNat_add_one_of_lt hlt], hch⟩
    · simp [FrontEnd.tick_changing, hp, hne, hle]
  · obtain ⟨hfiltered, hhold, hchanges, hchanging⟩ := s.frontEnd.changeLevel_same ch
    refine ⟨_, exec_filteredLevelChange_due hch, rfl, hfiltered, hhold, ?_, hchanging,
      fun c hc => s.frontEnd.changeLevel_other hc⟩
    exact hchanges ▸ changeCount_rises _

/-! ## Sample periods and boundaries (R6, R12) -/

/-- Every sample period divides the modulus of station time. -/
theorem period_dvd_modulus (rate : BitVec 4) : period rate ∣ 2 ^ 48 := Nat.pow_dvd_pow 2 (by omega)

/-- A station time given by a multiple of a period is one. -/
theorem ofNat_mod_period {n : Nat} (rate : BitVec 4) (h : n % period rate = 0) :
    (BitVec.ofNat 48 n).toNat % period rate = 0 := by
  rw [BitVec.toNat_ofNat, Nat.mod_mod_of_dvd _ (period_dvd_modulus rate), h]

/-- One period after a boundary lies a boundary (R6). -/
theorem after_mod_period {t : StationTime} {rate : BitVec 4} (h : t.toNat % period rate = 0) :
    (after t (period rate)).toNat % period rate = 0 := by
  have hsum : after t (period rate) = BitVec.ofNat 48 (t.toNat + period rate) :=
    BitVec.eq_of_toNat_eq (by simp [after])
  rw [hsum]
  exact ofNat_mod_period rate (by rw [Nat.add_mod_right, h])

/-- The first multiple of a period after a time is a multiple of it (R12). -/
theorem boundaryAfter_mod_period (t : StationTime) (rate : BitVec 4) :
    (boundaryAfter t (period rate)).toNat % period rate = 0 :=
  ofNat_mod_period rate (Nat.mul_mod_left _ _)

/-! ## What the sampling invariant asks of the front end, and the operations that keep it -/

/-- What `State.SamplingInv` says, of the front end alone (R2, R6). -/
def FrontEnd.Sampled (fe : FrontEnd) : Prop :=
  (∀ c, fe.chanPresent c = false →
    chanBit fe.filtered c = false ∧ chanBit fe.changing c = false ∧ vget fe.changes c = 0 ∧
      chanBit fe.lastLevels c = false ∧ chanBit fe.activity c = false) ∧
    fe.nextBoundary.toNat % period fe.rate = 0

theorem State.samplingInv_iff (s : State) : s.SamplingInv ↔ s.frontEnd.Sampled := Iff.rfl

theorem FrontEnd.sampled_reset (bank0 bank1 : Bool) : (FrontEnd.reset bank0 bank1).Sampled :=
  ⟨fun c _ => ⟨chanBit_zero c, chanBit_zero c, vget_replicate _ c, chanBit_zero c, chanBit_zero c⟩,
    show (4 : StationTime).toNat % period 2 = 0 by decide⟩

theorem FrontEnd.sampled_fullReset (fe : FrontEnd) (pins : Straps) : (fe.fullReset pins).Sampled :=
  FrontEnd.sampled_reset pins.bs0 pins.bs1

theorem FrontEnd.Sampled.input {fe : FrontEnd} (h : fe.Sampled) (c : Chan) (uv : Int) : (fe.input c uv).Sampled := h

theorem FrontEnd.Sampled.load {fe : FrontEnd} (h : fe.Sampled) (now : StationTime) (g : General) :
    (fe.load now g).Sampled :=
  ⟨h.1, boundaryAfter_mod_period now g.rate⟩

/-- The clear on report of the activity mask (R182). -/
theorem FrontEnd.Sampled.clearActivity {fe : FrontEnd} (h : fe.Sampled) : { fe with activity := 0 }.Sampled := by
  obtain ⟨habsent, hnext⟩ := h
  refine ⟨fun c hc => ?_, hnext⟩
  obtain ⟨hfiltered, hchanging, hchanges, hlast, -⟩ := habsent c hc
  exact ⟨hfiltered, hchanging, hchanges, hlast, chanBit_zero c⟩

/-- A tick notes no change for a channel of an absent bank. -/
theorem FrontEnd.Sampled.tick {fe : FrontEnd} (h : fe.Sampled) : fe.tick.Sampled := by
  obtain ⟨habsent, hnext⟩ := h
  refine ⟨fun c hc => ?_, hnext⟩
  have hc' : fe.chanPresent c = false := hc
  obtain ⟨hfiltered, -, hchanges, hlast, hactivity⟩ := habsent c hc'
  exact ⟨hfiltered, by simp [FrontEnd.tick_changing, hc'], hchanges, hlast, hactivity⟩

/-- The channel whose change is due is one of a present bank, so that of an absent one none changes. -/
theorem FrontEnd.Sampled.changeLevel {fe : FrontEnd} (h : fe.Sampled) {ch : Chan}
    (hch : chanBit fe.changing ch = true) : (fe.changeLevel ch).Sampled := by
  obtain ⟨habsent, hnext⟩ := h
  refine ⟨fun c hc => ?_, hnext⟩
  obtain ⟨hfiltered, hchanging, hchanges, hlast, hactivity⟩ := habsent c hc
  have hne : c ≠ ch := by
    rintro rfl
    simp [hch] at hchanging
  obtain ⟨hf, -, hn, hg⟩ := fe.changeLevel_other hne
  exact ⟨hf.trans hfiltered, hg.trans hchanging, hn.trans hchanges, hlast, hactivity⟩

/-- What a delivered element adds to the activity mask (R10). -/
theorem FrontEnd.deliver_activity (fe : FrontEnd) (now : StationTime) (c : Chan) :
    chanBit (fe.deliver now).activity c =
      (chanBit fe.activity c || chanBit fe.filtered c != chanBit fe.lastLevels c || vget fe.changes c == 2) := by
  simp [FrontEnd.deliver, FrontEnd.glitchSet, chanBit_or, chanBit_xor, Bool.xor_comm]

/-- The delivery of the element of a boundary keeps absent channels out of the mask and leads to the next boundary. -/
theorem FrontEnd.Sampled.deliver {fe : FrontEnd} (h : fe.Sampled) {now : StationTime} (hnow : now = fe.nextBoundary) :
    (fe.deliver now).Sampled := by
  obtain ⟨habsent, hnext⟩ := h
  refine ⟨fun c hc => ?_, after_mod_period (hnow ▸ hnext)⟩
  obtain ⟨hfiltered, hchanging, hchanges, hlast, hactivity⟩ := habsent c hc
  refine ⟨hfiltered, hchanging, vget_replicate _ c, hfiltered, ?_⟩
  rw [FrontEnd.deliver_activity, hactivity, hfiltered, hlast, hchanges]
  rfl

end Sys2Proof.Machine
end

section
/-! PROOFS. About the session at a boundary: what each operation under a delivered element does to time, the draft, the
running session and the front end. -/

namespace Sys2Proof.Machine

/-! ## What an operation of a boundary does to the session and the front end (R12, R47) -/

/-- The session is not ended from `s` to `t`: the front end stays, a session that runs goes on, and without a current
segment nothing of the session changes. -/
def State.SessionStays (s t : State) : Prop :=
  t.frontEnd = s.frontEnd ∧ (s.session.state.runs = true → t.session.state.runs = true) ∧
    (s.store.current = none → t.store.current = none ∧ t.session.state = s.session.state)

/-- The session ends from `s` to `t`: the current segment is gone and the front end has loaded the draft (R12, R47). -/
def State.SessionEnds (s t : State) : Prop :=
  s.store.current ≠ none ∧ t.frontEnd = s.frontEnd.load s.time s.session.draft.general ∧
    t.store.current = none ∧ t.session.state.runs = false

/-- What every operation of a boundary keeps: time, the draft, and a session that stays or ends with the load of its
end. -/
structure State.Passes (s t : State) : Prop where
  time : t.time = s.time
  draft : t.session.draft = s.session.draft
  outcome : s.SessionStays t ∨ s.SessionEnds t

theorem State.SessionStays.of_eq {s t : State} (hf : t.frontEnd = s.frontEnd)
    (hs : t.session.state = s.session.state) (hc : t.store.current = s.store.current) : s.SessionStays t :=
  ⟨hf, fun h => hs ▸ h, fun h => ⟨hc.trans h, hs⟩⟩

theorem State.Passes.of_eq {s t : State} (ht : t.time = s.time) (hf : t.frontEnd = s.frontEnd)
    (hs : t.session = s.session) (hc : t.store.current = s.store.current) : s.Passes t :=
  ⟨ht, by rw [hs], .inl (.of_eq hf (by rw [hs]) hc)⟩

theorem State.Passes.refl (s : State) : s.Passes s := .of_eq rfl rfl rfl rfl

/-- A session that has ended has no current segment, so what follows leaves it ended and loads nothing more. -/
theorem State.Passes.trans {s u t : State} (hsu : s.Passes u) (hut : u.Passes t) : s.Passes t := by
  obtain ⟨htime, hdraft, hout⟩ := hsu
  obtain ⟨htime', hdraft', hout'⟩ := hut
  refine ⟨htime'.trans htime, hdraft'.trans hdraft, ?_⟩
  obtain ⟨hf, hr, hn⟩ | ⟨hc, hf, hn, hr⟩ := hout <;> obtain ⟨hf', hr', hn'⟩ | ⟨hc', hf', hn', hr'⟩ := hout'
  · refine .inl ⟨hf'.trans hf, fun h => hr' (hr h), fun h => ?_⟩
    obtain ⟨hnu, hsu⟩ := hn h
    obtain ⟨hnt, hst⟩ := hn' hnu
    exact ⟨hnt, hst.trans hsu⟩
  · exact .inr ⟨fun h => hc' (hn h).1, by rw [hf', hf, htime, hdraft], hn', hr'⟩
  · obtain ⟨hnt, hst⟩ := hn' hn
    exact .inr ⟨hc, hf'.trans hf, hnt, by rw [hst, hr]⟩
  · exact absurd hn hc'

/-- What passes keeps the sampling invariant of the front end. -/
theorem State.Passes.sampled {s t : State} (h : s.Passes t) (hs : s.frontEnd.Sampled) : t.frontEnd.Sampled := by
  obtain ⟨hf, -, -⟩ | ⟨-, hf, -, -⟩ := h.outcome
  · exact hf ▸ hs
  · exact hf ▸ FrontEnd.Sampled.load hs _ _

/-! ### Offers and the fire -/

/-- A trigger makes the session TRIGGERED (R46). -/
theorem State.trigger_sessionState (s : State) (l : Layout) (c : Current) (o : Offer) (late : Bool) :
    (s.trigger l c o late).session.state = .triggered := by
  unfold State.trigger; (repeat' split) <;> simp

theorem State.takeOffer_passes (s : State) (o : Offer) (late : Bool) : s.Passes (s.takeOffer o late) := by
  refine ⟨by simp, by simp, .inl ⟨by simp, ?_⟩⟩
  obtain h | ⟨l, c, -, hc, ⟨-, h⟩ | ⟨-, x, h, -⟩⟩ := s.takeOffer_cases o late
  · rw [h]; exact ⟨id, fun hn => ⟨hn, rfl⟩⟩
  · rw [h, State.trigger_sessionState]; exact ⟨fun _ => rfl, fun hn => by simp [hc] at hn⟩
  · rw [h]; simp

theorem State.offer_passes (s : State) (o : Offer) (late : Bool) : s.Passes (s.offer o late) := by
  obtain h | ⟨c, -, -, -, h⟩ := s.offer_cases o late
  · exact h ▸ s.takeOffer_passes o late
  · exact h ▸ .of_eq rfl rfl rfl rfl

theorem State.takeOffers_passes (s : State) : s.Passes s.takeOffers :=
  State.takeOffers_induct (P := s.Passes) (fun h => h.trans (.of_eq rfl rfl rfl rfl))
    (fun t o late h => h.trans (t.takeOffer_passes o late)) (.refl s)

/-- A fire that the mark unit takes is offered, drives MARK, or has no effect (R67, R81, R83, R88). -/
theorem State.takeFire_cases (s : State) (f : Fire) :
    s.takeFire f = s.offer f.offer false ∨ s.takeFire f = s ∨
      ∃ c, s.takeFire f = { s with mark := s.mark.leadFire c f s.time } := by
  unfold State.takeFire
  split
  · rename_i c _ _
    split
    · exact .inl rfl
    · split
      · exact .inr (.inr ⟨c, rfl⟩)
      · exact .inr (.inl rfl)
  · exact .inl rfl
  · exact .inr (.inl rfl)

theorem State.takeFire_passes (s : State) (f : Fire) : s.Passes (s.takeFire f) := by
  obtain h | h | ⟨c, h⟩ := s.takeFire_cases f
  · exact h ▸ s.offer_passes _ _
  · rw [h]; exact .refl s
  · exact h ▸ .of_eq rfl rfl rfl rfl

/-- The state with no fire handed to the mark unit. -/
def State.clearHanded (s : State) : State := { s with mark := { s.mark with handed := none } }

/-- The fire handed to the mark unit is taken by a unit that holds it no longer (R67). -/
theorem State.takeHanded_of_some {s : State} {f : Fire} (h : s.mark.handed = some f) :
    s.takeHanded = s.clearHanded.takeFire f := by
  simp only [State.takeHanded, h, State.clearHanded]

theorem State.takeHanded_of_none {s : State} (h : s.mark.handed = none) : s.takeHanded = s := by
  simp only [State.takeHanded, h]

theorem State.takeHanded_passes (s : State) : s.Passes s.takeHanded := by
  cases h : s.mark.handed with
  | none => rw [State.takeHanded_of_none h]; exact .refl s
  | some f =>
    rw [State.takeHanded_of_some h]
    exact State.Passes.trans (u := s.clearHanded) (.of_eq rfl rfl rfl rfl) (s.clearHanded.takeFire_passes f)

theorem State.takeEarlierFire_passes (s : State) (e : Element) : s.Passes (s.takeEarlierFire e) := by
  obtain h | h := s.takeEarlierFire_cases e
  · rw [h]; exact .refl s
  · exact h ▸ s.takeHanded_passes

/-! ### The store's element -/

/-- With a current segment, an operation that leaves the session running as it was passes. -/
theorem State.Passes.of_current {s t : State} {c : Current} (hc : s.store.current = some c) (ht : t.time = s.time)
    (hd : t.session.draft = s.session.draft) (hf : t.frontEnd = s.frontEnd)
    (hr : s.session.state.runs = true → t.session.state.runs = true) : s.Passes t :=
  ⟨ht, hd, .inl ⟨hf, hr, fun h => by simp [hc] at h⟩⟩

/-- The next segment starts in a session that goes on, or the session is DONE and the front end loads the draft (R12,
R47). -/
theorem State.afterClose_cases (s : State) (l : Layout) (k : Fin 8) (e : Element) :
    (∃ k', l.next k = some k' ∧ (s.afterClose l k e).frontEnd = s.frontEnd ∧
        (s.afterClose l k e).session.state = .armed) ∨
      (l.next k = none ∧ (s.afterClose l k e).frontEnd = s.frontEnd.load s.time s.session.draft.general ∧
        (s.afterClose l k e).session.state = .done ∧ (s.afterClose l k e).store.current = s.store.current) := by
  unfold State.afterClose
  split
  · rename_i k' h
    refine .inl ⟨k', h, ?_, ?_⟩ <;> simp [State.startSegment]
  · rename_i h
    refine .inr ⟨h, ?_, ?_, ?_⟩ <;> simp [State.endSession, State.load]

theorem State.endSegment_current (s : State) (c : Current) (close : StationTime) (st : SegState) :
    (s.endSegment c close st).store.current = none := rfl

theorem State.closeSegment_passes {s : State} {c : Current} (hc : s.store.current = some c) (l : Layout) (c' : Current)
    (e : Element) : s.Passes (s.closeSegment l c' e) := by
  unfold State.closeSegment
  obtain ⟨k', -, hf, hst⟩ | ⟨-, hf, hst, hcur⟩ :=
    (s.endSegment c' e.boundary .complete).afterClose_cases l c'.seg e
  · exact .of_current hc (by simp) (by simp) (by simp [hf]) (fun _ => by simp [hst, SessState.runs])
  · refine ⟨by simp, by simp, .inr ⟨by simp [hc], by simp [hf], ?_, by simp [hst, SessState.runs]⟩⟩
    simp [hcur, State.endSegment_current]

/-- After the start boundary's element the segment is still current. -/
theorem State.takeStart_current (s : State) (l : Layout) (c : Current) (e : Element) :
    (s.takeStart l c e).store.current = some { c with taken := some e.boundary } := by
  unfold State.takeStart; dsimp only; split <;> simp

/-- A segment that closes or not passes either way. -/
theorem State.Passes.closeIf {s u : State} {c : Current} (h : s.Passes u) (hc : u.store.current = some c)
    (p : Bool) (l : Layout) (c' : Current) (e : Element) : s.Passes (if p then u.closeSegment l c' e else u) := by
  cases p
  · exact h
  · exact h.trans (State.closeSegment_passes hc l c' e)

theorem State.takeFirst_passes {s : State} {c : Current} (hc : s.store.current = some c) (l : Layout) (c' : Current)
    (e : Element) : s.Passes (s.takeFirst l c' e) :=
  State.Passes.closeIf (.of_current hc (by simp) (by simp) (by simp) (by simp)) (s.takeStart_current l c' e) _ l c' e

/-- The record that an element produces, staged and counted (R17, R18, R29, R45): what comes before the test for the
segment's close. -/
def State.recordElement (s : State) (l : Layout) (c : Current) (f : Reference) (e : Element) : State :=
  let s := { s with store := { s.store with current := some { c with taken := some e.boundary } } }
  match recordAt (period l.rate) f e with
  | none => s
  | some r =>
    let s := { s with store := s.store.offerRec c.seg e.boundary r }
    (s.setHeader c.seg (s.header c.seg).produced).checkReady

theorem State.takeElement_eq (s : State) (l : Layout) (c : Current) (f : Reference) (e : Element) :
    s.takeElement l c f e =
      if ((s.recordElement l c f e).header c.seg).closesAt e.boundary then (s.recordElement l c f e).closeSegment l c e
      else s.recordElement l c f e := rfl

theorem State.recordElement_fields (s : State) (l : Layout) (c : Current) (f : Reference) (e : Element) :
    (s.recordElement l c f e).time = s.time ∧ (s.recordElement l c f e).session.draft = s.session.draft ∧
      (s.recordElement l c f e).frontEnd = s.frontEnd ∧
      (s.recordElement l c f e).session.state = s.session.state ∧
      (s.recordElement l c f e).store.current = some { c with taken := some e.boundary } := by
  unfold State.recordElement; dsimp only; split <;> simp

theorem State.takeElement_passes {s : State} {c : Current} (hc : s.store.current = some c) (l : Layout) (c' : Current)
    (f : Reference) (e : Element) : s.Passes (s.takeElement l c' f e) := by
  obtain ⟨ht, hd, hf, hs, hcur⟩ := s.recordElement_fields l c' f e
  rw [State.takeElement_eq]
  exact .closeIf (.of_current hc ht hd hf (fun h => hs ▸ h)) hcur _ l c' e

theorem State.takeBoundary_passes (s : State) (e : Element) : s.Passes (s.takeBoundary e) := by
  unfold State.takeBoundary
  split
  · rename_i l c _ hc
    split
    · exact State.takeElement_passes hc _ _ _ _
    · split
      · exact State.takeFirst_passes hc _ _ _
      · exact .refl s
  · exact .refl s

theorem State.storeElement_passes (s : State) (e : Element) : s.Passes (s.storeElement e) :=
  (s.takeBoundary_passes e).trans (State.takeOffers_passes _)

/-! ### A whole delivery -/

theorem Delivery.takeNext_passes (d : Delivery) (s : State) (u : Fin 4) (ws : List Word) (b : StationTime) :
    s.Passes (d.takeNext s u ws b).2 :=
  .of_eq (by simp) (by simp) (by simp) (by simp)

theorem Delivery.consume_passes (e : Element) (x : Delivery × State) (c : Consumer) :
    x.2.Passes (Delivery.consume e x c).2 := by
  obtain ⟨d, s⟩ := x
  cases c with
  | store =>
    simp only [Delivery.consume]
    split
    · exact .refl s
    · exact (s.takeEarlierFire_passes e).trans (State.storeElement_passes _ e)
  | sequencer =>
    simp only [Delivery.consume]
    split
    · exact .refl s
    · exact .of_eq (by simp) (by simp) (by simp) (by simp)
  | mark => exact s.takeHanded_passes
  | decoder u =>
    simp only [Delivery.consume]
    split
    · exact State.Passes.trans (.of_eq (by simp) (by simp) (by simp) (by simp)) (Delivery.takeNext_passes _ _ _ _ _)
    · exact Delivery.takeNext_passes _ _ _ _ _

theorem State.deliver_passes (s : State) (sched : List Consumer) (e : Element) : s.Passes (s.deliver sched e) :=
  foldl_induct (P := fun x : Delivery × State => s.Passes x.2) _
    (fun x c h => h.trans (Delivery.consume_passes e x c)) (fullSchedule sched) (Delivery.start, s) (.refl s)

/-- A boundary: the front end delivers, and from there on the session stays or ends. -/
theorem State.boundary_passes (s : State) (sched : List Consumer) :
    State.Passes { s with frontEnd := s.frontEnd.deliver s.time } (s.boundary sched) :=
  (State.deliver_passes { s with frontEnd := s.frontEnd.deliver s.time } sched (s.frontEnd.element s.time)).trans
    (.of_eq (by simp [State.boundary]) (by simp [State.boundary]) (by simp [State.boundary])
      (by simp [State.boundary]))

end Sys2Proof.Machine
end

section
/-! PROOFS. About every command and the sampling invariant (R2, R6). -/

namespace Sys2Proof.Machine

/-! ## The commands that leave the front end alone -/

/-- A command that answers with a state that keeps the front end. -/
theorem frontEnd_of_next {s u t : State} (hu : u.frontEnd = s.frontEnd)
    (h : (.next u : Host.Outcome State Fault Refusal) = .next t) : t.frontEnd = s.frontEnd := by
  cases h; exact hu

/-- An event that acts only where it is due, and then keeps the front end. -/
theorem frontEnd_ite {p : Prop} [Decidable p] {s u : State} (hu : u.frontEnd = s.frontEnd) :
    (if p then u else s).frontEnd = s.frontEnd := by
  split
  · exact hu
  · rfl

/-- A frame whose block keeps the front end. -/
theorem State.receive_frontEnd {act : State → State} (ha : ∀ s, (act s).frontEnd = s.frontEnd) (f : RxFrame)
    (s : State) : (s.receive f act).frontEnd = s.frontEnd :=
  State.receive_keeps State.frontEnd (fun _ _ => by simp) ha f s

theorem State.noteAfter_frontEnd (s : State) (e : QEntry) : (s.noteAfter e).frontEnd = s.frontEnd := by
  unfold State.noteAfter; split <;> simp

/-- The result of an own frame reaches the bus, its originator and the peer table, not the front end (R144, R150). -/
theorem execFrameSent_frontEnd {stamp : StationTime} {s t : State} (h : execFrameSent stamp s = .next t) :
    t.frontEnd = s.frontEnd := by
  refine frontEnd_of_next ?_ h
  split
  · simp [State.noteAfter_frontEnd]
  · rfl

theorem execFrameUnheard_frontEnd {s t : State} (h : execFrameUnheard s = .next t) : t.frontEnd = s.frontEnd := by
  refine frontEnd_of_next ?_ h
  split
  · simp [State.noteAfter_frontEnd]
  · rfl

theorem execFrameSpoiled_frontEnd {s t : State} (h : execFrameSpoiled s = .next t) : t.frontEnd = s.frontEnd := by
  refine frontEnd_of_next ?_ h
  split
  · dsimp only
    rw [State.noteAfter_frontEnd]
    split <;> simp
  · rfl

theorem execAskServiceStart_frontEnd {s t : State} (h : execAskServiceStart s = .next t) :
    t.frontEnd = s.frontEnd := by
  refine frontEnd_of_next (frontEnd_ite ?_) h
  split <;> simp

theorem execMarkEdge_frontEnd {rising late : Bool} {s t : State} (h : execMarkEdge rising late s = .next t) :
    t.frontEnd = s.frontEnd :=
  frontEnd_of_next (frontEnd_ite (by simp)) h

/-- A command that `mayChange` does not give the front end leaves it as it is. -/
theorem exec_keeps_frontEnd {c : Instr} {s t : State} (hc : Block.frontEnd ∉ mayChange c)
    (h : exec c s = .next t) : t.frontEnd = s.frontEnd := by
  cases c
  case fullReset | restart | filteredLevelChange | comparatorStateChange | sampleBoundary | placeGranted | busBreak |
      arm | planPart | halt => simp [mayChange] at hc
  case stagingWrite | stageTimerExpiry | markPulseEnd | edgeWaitEnd | windowClose | trigOutEnd | feedTimeout |
      timeNoteDue | busFree | transmitStart | frameReceiveError | rejoinTimerExpiry | joinComplete | presenceTimeout |
      fetchDeadline | reaskTimer | pushEnd | errorSignallingEnd | breakEnd =>
    exact frontEnd_of_next (frontEnd_ite (by simp)) h
  case timeNote f | rollCall f | markNote f | statusNote f | reduceAsk f | wordsAsk f | statusAsk f | stop f |
      viewPart f | viewGo f | runs f | boxes f =>
    exact frontEnd_of_next (State.receive_frontEnd (fun _ => by simp) f s) h
  case wordsNote f => exact frontEnd_of_next (State.receive_frontEnd (fun _ => rfl) f s) h
  case markEdge rising late => exact execMarkEdge_frontEnd h
  case frameSent stamp => exact execFrameSent_frontEnd h
  case frameUnheard => exact execFrameUnheard_frontEnd h
  case frameSpoiled => exact execFrameSpoiled_frontEnd h
  case askServiceStart => exact execAskServiceStart_frontEnd h

/-! ## The commands that may change it -/

/-- An aborted session ends with the load of its draft (R12, R48, R49). -/
theorem State.abort_frontEnd (s : State) (render : Bool) :
    (s.abort render).frontEnd = s.frontEnd ∨
      (s.abort render).frontEnd = s.frontEnd.load s.time s.session.draft.general := by
  unfold State.abort
  obtain h | ⟨c, -, -, h⟩ := s.takeOffers.cut_cases render
  · exact .inl (by simp [h])
  · exact .inr (by simp [h, State.endSession, State.load])

theorem State.abort_sampled {s : State} (h : s.frontEnd.Sampled) (render : Bool) :
    (s.abort render).frontEnd.Sampled := by
  obtain hf | hf := s.abort_frontEnd render
  · exact hf ▸ h
  · exact hf ▸ h.load _ _

/-- Of a bus break, only the abort of the session reaches the front end (R155). -/
theorem State.takeBreak_frontEnd (s : State) : s.takeBreak.frontEnd = (s.abort false).frontEnd := by
  unfold State.takeBreak; dsimp only; split <;> simp

theorem State.takeHalt_sampled (f : RxFrame) {s : State} (h : s.frontEnd.Sampled) :
    (State.takeHalt f s).frontEnd.Sampled := by
  unfold State.takeHalt
  split
  · exact State.abort_sampled h true
  · exact h

/-- An accepted ARM loads the front end with the plan it makes active (R12, R44). -/
theorem State.acceptArm_frontEnd (s : State) :
    s.acceptArm.frontEnd = s.frontEnd.load s.time s.session.draft.general := by
  unfold State.acceptArm; simp [State.load]

theorem State.takeArm_sampled (f : RxFrame) {s : State} (h : s.frontEnd.Sampled) :
    (State.takeArm f s).frontEnd.Sampled := by
  unfold State.takeArm State.arm
  repeat' split
  · simpa using h
  · simpa using h
  · exact s.acceptArm_frontEnd ▸ h.load _ _
  · exact h

/-- A GENERAL part taken outside a session loads the front end, any other part leaves it (R39, R40). -/
theorem State.takePlanPart_sampled (f : RxFrame) {s : State} (h : s.frontEnd.Sampled) :
    (State.takePlanPart f s).frontEnd.Sampled := by
  unfold State.takePlanPart
  split
  · exact h
  · split
    · dsimp only
      split
      · exact h.load _ _
      · exact h
    · exact h

theorem State.takeRestart_sampled (f : RxFrame) {s : State} (h : s.frontEnd.Sampled) :
    (State.takeRestart f s).frontEnd.Sampled := by
  unfold State.takeRestart
  split
  · exact s.frontEnd.sampled_fullReset s.pins
  · exact h

/-- A SUMMARY reply clears the activity mask when it is composed; no other frame placed reaches the front end (R147,
R182). -/
theorem State.compose_sampled (r : StatusReply) {s : State} (h : s.frontEnd.Sampled) :
    (s.compose r).2.frontEnd.Sampled := by
  unfold State.compose
  split
  · exact h.clearActivity
  · exact h
  · exact h

theorem State.placeStatus_sampled (r : StatusReply) {s : State} (h : s.frontEnd.Sampled) :
    (s.placeStatus r).frontEnd.Sampled := by
  have hc := State.compose_sampled r h
  unfold State.placeStatus
  cases r.composed <;> dsimp only <;> split <;> simpa

theorem State.place_sampled (p : Pick) {s : State} (h : s.frontEnd.Sampled) : (s.place p).frontEnd.Sampled := by
  cases p with
  | status r => exact State.placeStatus_sampled r h
  | viewAsk w =>
    simp only [State.place]
    split <;> simpa
  | _ => simpa [State.place] using h

theorem execPlaceGranted_sampled {s t : State} (h : s.frontEnd.Sampled) (ht : execPlaceGranted s = .next t) :
    t.frontEnd.Sampled := by
  cases ht
  repeat' split
  · exact State.place_sampled _ h
  · exact h
  · exact h

/-- Where the boundary's tick is the one the front end awaits, the delivery keeps its invariant, and then the session's
operations do. -/
theorem execSampleBoundary_sampled {sched : List Consumer} {s t : State} (h : s.frontEnd.Sampled)
    (ht : execSampleBoundary sched s = .next t) : t.frontEnd.Sampled := by
  cases ht
  split
  · rename_i hdue
    have hnow : s.time = s.frontEnd.nextBoundary := by
      simp only [State.boundaryDue, Bool.and_eq_true, beq_iff_eq] at hdue
      exact hdue.1
    exact (s.boundary_passes sched).sampled (h.deliver hnow)
  · exact h

/-- A frame whose block keeps the sampling invariant keeps it. -/
theorem State.receive_sampled {act : State → State}
    (ha : ∀ s : State, s.frontEnd.Sampled → (act s).frontEnd.Sampled) (f : RxFrame) {s : State}
    (h : s.frontEnd.Sampled) : (s.receive f act).frontEnd.Sampled :=
  State.receive_induct (P := fun s => s.frontEnd.Sampled) (fun f s hs => by simpa using hs) ha f s h

/-- Every command keeps the sampling invariant. -/
theorem exec_sampled {c : Instr} {s t : State} (h : s.frontEnd.Sampled) (ht : exec c s = .next t) :
    t.frontEnd.Sampled := by
  by_cases hc : Block.frontEnd ∈ mayChange c
  case neg => exact exec_keeps_frontEnd hc ht ▸ h
  cases c
  case fullReset pins => cases ht; exact s.frontEnd.sampled_fullReset pins
  case restart f => cases ht; exact State.receive_sampled (fun _ => State.takeRestart_sampled f) f h
  case filteredLevelChange ch =>
    cases ht
    split
    · rename_i hch
      exact h.changeLevel hch
    · exact h
  case comparatorStateChange ch uv => cases ht; exact h.input ch uv
  case sampleBoundary sched => exact execSampleBoundary_sampled h ht
  case placeGranted => exact execPlaceGranted_sampled h ht
  case busBreak =>
    cases ht
    split
    · exact h
    · exact s.takeBreak_frontEnd ▸ State.abort_sampled h false
  case arm f => cases ht; exact State.receive_sampled (fun _ => State.takeArm_sampled f) f h
  case planPart f => cases ht; exact State.receive_sampled (fun _ => State.takePlanPart_sampled f) f h
  case halt f => cases ht; exact State.receive_sampled (fun _ => State.takeHalt_sampled f) f h
  all_goals simp [mayChange] at hc

/-- Settles O8: the invariant speaks of the front end alone, and every command, the taking of a fire and the tick keep
it. -/
theorem samplingInvariantKept : Obligations.SamplingInvariantKept :=
  keptByStep_of (Inv := State.SamplingInv) (fun _ _ h => h) (fun _ _ h => h) (fun _ _ _ h ht => exec_sampled h ht)
    (fun s h => (s.takeHanded_passes).sampled h)
    (fun s h => (State.samplingInv_iff _).2 (s.tick_frontEnd ▸ FrontEnd.Sampled.tick h))

end Sys2Proof.Machine
end

section
/-! PROOFS. About a full reset: each block's table, and the invariants that hold right after it. -/

namespace Sys2Proof.Machine

/-! ## A full reset, block by block -/

/-- The front end after a full reset (R13): the comparators stay. -/
theorem FrontEnd.fullReset_table (fe : FrontEnd) (pins : Straps) :
    (fe.fullReset pins).present = ⟨#[pins.bs0, pins.bs1], rfl⟩ ∧ (fe.fullReset pins).rate = 2 ∧
      (∀ b, vget (fe.fullReset pins).threshold b = 80 ∧ vget (fe.fullReset pins).hysteresis b = 1 ∧
        vget (fe.fullReset pins).deglitch b = 0) ∧
      (fe.fullReset pins).filtered = 0 ∧
      (∀ c, vget (fe.fullReset pins).hold c = 0 ∧ vget (fe.fullReset pins).changes c = 0) ∧
      (fe.fullReset pins).lastLevels = 0 ∧ (fe.fullReset pins).activity = 0 ∧ (fe.fullReset pins).nextBoundary = 4 ∧
      (fe.fullReset pins).comparator = fe.comparator := by
  simp [FrontEnd.fullReset, FrontEnd.reset]

/-- An empty record memory reads as no record (R35), and every header is that of an EMPTY segment. -/
theorem Store.reset_reads : (∀ k, vget Store.reset.headers k = SegHeader.empty) ∧ ∀ p, Store.reset.read p = none :=
  ⟨fun k => vget_replicate _ k, fun _ => rfl⟩

/-- The draft plan after a full reset (R42). -/
theorem Plan.default_parts :
    (∀ n, vget Plan.default.stages n = Stage.default) ∧
      (∀ u, vget Plan.default.decoders u = { cfg := .off, dest := .queue .a }) ∧
      (∀ i, (vget Plan.default.filters i).enabled = false) ∧
      ∀ q ∈ [Plan.default.qa, Plan.default.qb], q = QueueCfg.default := by
  simp [Plan.default, FilterEntry.default]

/-- Each queue is empty after a full reset, its feed off (R136). -/
theorem Words.reset_queue (q : QueueId) : Words.reset.queue q = WQueue.reset := by cases q <;> rfl

/-- Each channel's last-change time is absent after a full reset (R76). -/
theorem Sequencer.reset_lastChange (c : Chan) : vget Sequencer.reset.lastChange c = none := vget_replicate _ c

/-- Each decoder unit after a full reset (R116). -/
theorem Decoders.reset_unit (u : Fin 4) : vget Decoders.reset.units u = DecUnit.reset := vget_replicate _ u

/-- Each latch slot is empty after a full reset (R136). -/
theorem Words.reset_latch (n : Fin 8) : vget Words.reset.latches n = Latch.empty := vget_replicate _ n

/-- Each peer's record is empty after a full reset (R169). -/
theorem PeerTable.reset_peer (p : Station) : vget PeerTable.reset.peers p = Peer.empty := vget_replicate _ p

/-- Each lane is unused and without a fetch entry after a full reset, and the frame buffer is background (R198). -/
theorem View.reset_reads (panel : Bool) :
    (∀ n, vget (View.reset panel).lanes n = Lane.unused ∧ vget (View.reset panel).fetch n = none) ∧
      ∀ a, (View.reset panel).readByte a = 0 := by
  refine ⟨fun n => ⟨vget_replicate _ n, vget_replicate _ n⟩, fun a => rfl⟩

/-- Settles O14: the state that a full reset answers with, read block by block. -/
theorem fullResetClearsEveryBlock : Obligations.FullResetClearsEveryBlock := by
  unfold Obligations.FullResetClearsEveryBlock
  intro pins s
  refine ⟨s.fullReset pins, rfl, rfl, s.frontEnd.fullReset_table pins, ?store, ?header, ?draft, ?session, ?sequencer,
    ?mark, ?decoders, ?words, ?bus, ?peers, rfl, ?view⟩
  case store => exact ⟨rfl, Store.reset_reads.1, Store.reset_reads.2, rfl, rfl, rfl, rfl, rfl⟩
  case header => exact ⟨rfl, rfl, rfl, rfl, rfl, rfl, rfl, rfl, rfl, rfl, rfl⟩
  case draft =>
    obtain ⟨hstages, hdecoders, hfilters, hqueues⟩ := Plan.default_parts
    exact ⟨rfl, hstages, hdecoders, hfilters, hqueues⟩
  case session => exact ⟨rfl, rfl, rfl, rfl, rfl, rfl⟩
  case sequencer => exact ⟨rfl, rfl, rfl, rfl, rfl, rfl, rfl, rfl, Sequencer.reset_lastChange⟩
  case mark => exact ⟨rfl, rfl, rfl, rfl, rfl, rfl, rfl, rfl, rfl, rfl, rfl, rfl, rfl⟩
  case decoders =>
    refine ⟨rfl, rfl, fun u => ?_⟩
    rw [show (s.fullReset pins).decoders = Decoders.reset from rfl, Decoders.reset_unit]
    exact ⟨rfl, rfl, rfl⟩
  case words =>
    refine ⟨rfl, rfl, rfl, rfl, rfl, rfl, rfl, rfl, Words.reset_latch, fun q => ?_⟩
    rw [show (s.fullReset pins).words = Words.reset from rfl, Words.reset_queue]
    exact ⟨rfl, rfl, rfl, rfl, rfl, rfl, rfl, rfl, rfl, rfl, rfl, rfl⟩
  case bus => exact ⟨rfl, rfl, rfl, rfl, rfl, rfl, rfl, rfl, rfl, rfl, rfl, rfl, rfl, rfl⟩
  case peers => exact ⟨PeerTable.reset_peer, rfl, rfl, rfl⟩
  case view =>
    obtain ⟨hlanes, hbuffer⟩ := View.reset_reads pins.pnl
    exact ⟨hlanes, rfl, rfl, rfl, rfl, hbuffer, rfl, fun h => if_pos h⟩

/-! ## The invariants at reset -/

/-- No layout is held after a full reset, so no capacity binds a segment (R33, R35). -/
theorem reset_capacityInv : State.reset.CapacityInv := by
  intro l hl
  cases hl

/-- The transmit queue is empty after a full reset, with nothing on the wire (R156). -/
theorem reset_queueInv : State.reset.QueueInv := ⟨Nat.zero_le _, fun id h => by cases h⟩

/-- The link is JOINING with a score of 0 and no rejoin timer after a full reset (R153, R156). -/
theorem reset_linkInv : State.reset.LinkInv := by
  refine ⟨fun h => ?_, fun _ => rfl, Nat.zero_le _, ?_⟩
  · cases h
  · decide

/-- The front end after a full reset has every level LOW and its first boundary at 4, a multiple of its period (R13). -/
theorem reset_samplingInv : State.reset.SamplingInv := FrontEnd.sampled_reset true true

/-- No segment is current after a full reset, and no block runs (R37). -/
theorem reset_sessionInv : State.reset.SessionInv := ⟨rfl, rfl, rfl, rfl⟩

/-- The word queues are empty after a full reset (R136). -/
theorem reset_wordsInv : State.reset.WordsInv := by
  intro q
  rw [show State.reset.words = Words.reset from rfl, Words.reset_queue]
  exact ⟨Nat.le_refl _, Nat.le_refl _⟩

/-- Every word counter is 0 after a full reset (R136). -/
theorem reset_wordBalance : State.reset.WordBalance := by
  refine ⟨rfl, fun q => ?_⟩
  rw [show State.reset.words = Words.reset from rfl, Words.reset_queue]
  rfl

/-- The ask table is empty after a full reset (R184). -/
theorem reset_askInv : State.reset.AskInv := by
  refine ⟨Nat.zero_le _, Nat.zero_le _, Nat.zero_le _, List.nodup_nil, ?_, ?_⟩ <;> intro e he <;> cases he

/-- No frame waits anywhere after a full reset (R136, R156, R184). -/
theorem reset_kindInv : State.reset.KindInv := by
  refine ⟨List.nodup_nil, List.forall_mem_nil _, List.forall_mem_nil _, fun q => ?_, List.forall_mem_nil _,
    List.forall_mem_nil _⟩
  rw [show State.reset.words = Words.reset from rfl, Words.reset_queue]
  exact List.forall_mem_nil _

/-- Every peer's skew is 0 after a full reset (R169). -/
theorem reset_skewInv : State.reset.SkewInv := by
  intro p
  rw [show State.reset.peer p = Peer.empty from PeerTable.reset_peer p]
  exact ⟨by decide, by decide, fun _ => rfl⟩

/-- No edge is listed and no window missed after a full reset (R95). -/
theorem reset_markInv : State.reset.MarkInv := ⟨Nat.zero_le _, Nat.zero_le _⟩

/-- Settles O13: each invariant at reset, by its own lemma. -/
theorem invariantsHoldAtReset : Obligations.InvariantsHoldAtReset :=
  ⟨reset_memories_wf, reset_capacityInv, reset_queueInv, reset_linkInv, reset_samplingInv, reset_sessionInv,
    reset_wordsInv, reset_wordBalance, reset_askInv, reset_kindInv, reset_skewInv, reset_markInv⟩

end Sys2Proof.Machine
end

section
/-! PROOFS. About the delivery of an element to its consumers (R9): what it does under every order, and what it does
under the empty one, turn by turn. -/

namespace Sys2Proof.Machine

/-! ## The sequencer's copy (R57): who leaves it alone -/

/-- The sequencer's copy of the level set with the last-change times (R57). -/
def Sequencer.copy (q : Sequencer) : ChanSet × Vector (Option StationTime) 16 := (q.levels, q.lastChange)

@[simp] theorem Sequencer.copy_enter (q : Sequencer) (n : Fin 4) (how : StageEntry) (t : StationTime) :
    (q.enter n how t).copy = q.copy := rfl

@[simp] theorem Sequencer.copy_segmentReady (q : Sequencer) (b : StationTime) : (q.segmentReady b).copy = q.copy := by
  unfold Sequencer.segmentReady; split <;> simp

@[simp] theorem Sequencer.copy_park (q : Sequencer) : q.park.copy = q.copy := by
  unfold Sequencer.park; split <;> rfl

@[simp] theorem Sequencer.copy_nextSegment (q : Sequencer) : q.nextSegment.copy = q.copy := by
  unfold Sequencer.nextSegment; split <;> rfl

@[simp] theorem Sequencer.copy_stop (q : Sequencer) : q.stop.copy = q.copy := rfl

@[simp] theorem Sequencer.copy_noticeWaiting (q : Sequencer) (b : Bool) :
    { q with noticeWaiting := b }.copy = q.copy := rfl

@[simp] theorem Sequencer.copy_noteTruth (q : Sequencer) (c : Cond) (e : Element) :
    (q.noteTruth c e).copy = q.copy := by
  unfold Sequencer.noteTruth; split <;> rfl

@[simp] theorem State.copy_deliverNotice (s : State) : s.deliverNotice.sequencer.copy = s.sequencer.copy := by
  unfold State.deliverNotice; split <;> simp

@[simp] theorem State.copy_checkReady (s : State) : s.checkReady.sequencer.copy = s.sequencer.copy := by
  unfold State.checkReady; (repeat' split) <;> simp

@[simp] theorem State.copy_trigger (s : State) (l : Layout) (c : Current) (o : Offer) (late : Bool) :
    (s.trigger l c o late).sequencer.copy = s.sequencer.copy := by
  unfold State.trigger; (repeat' split) <;> simp

@[simp] theorem State.copy_takeOffer (s : State) (o : Offer) (late : Bool) :
    (s.takeOffer o late).sequencer.copy = s.sequencer.copy := by
  obtain h | ⟨l, c, -, -, ⟨-, h⟩ | ⟨-, x, h, -⟩⟩ := s.takeOffer_cases o late <;> simp [h]

@[simp] theorem State.copy_offer (s : State) (o : Offer) (late : Bool) :
    (s.offer o late).sequencer.copy = s.sequencer.copy := by
  obtain h | ⟨c, -, -, -, h⟩ := s.offer_cases o late <;> simp [h]

@[simp] theorem State.copy_takeOffers (s : State) : s.takeOffers.sequencer.copy = s.sequencer.copy :=
  State.takeOffers_induct (P := fun t => t.sequencer.copy = s.sequencer.copy) id
    (fun t o late h => (t.copy_takeOffer o late).trans h) rfl

@[simp] theorem State.copy_takeFire (s : State) (f : Fire) : (s.takeFire f).sequencer.copy = s.sequencer.copy := by
  obtain h | h | ⟨c, h⟩ := s.takeFire_cases f <;> simp [h]

@[simp] theorem State.copy_takeHanded (s : State) : s.takeHanded.sequencer.copy = s.sequencer.copy := by
  unfold State.takeHanded; split <;> simp

@[simp] theorem State.copy_takeEarlierFire (s : State) (e : Element) :
    (s.takeEarlierFire e).sequencer.copy = s.sequencer.copy := by
  obtain h | h := s.takeEarlierFire_cases e <;> simp [h]

@[simp] theorem State.copy_takeStart (s : State) (l : Layout) (c : Current) (e : Element) :
    (s.takeStart l c e).sequencer.copy = s.sequencer.copy := by
  unfold State.takeStart; dsimp only; split <;> simp

@[simp] theorem State.copy_endSession (s : State) : s.endSession.sequencer.copy = s.sequencer.copy := by
  simp [State.endSession]

@[simp] theorem State.copy_afterClose (s : State) (l : Layout) (k : Fin 8) (e : Element) :
    (s.afterClose l k e).sequencer.copy = s.sequencer.copy := by
  unfold State.afterClose; split <;> simp

@[simp] theorem State.copy_closeSegment (s : State) (l : Layout) (c : Current) (e : Element) :
    (s.closeSegment l c e).sequencer.copy = s.sequencer.copy := by
  simp [State.closeSegment]

@[simp] theorem State.copy_recordElement (s : State) (l : Layout) (c : Current) (f : Reference) (e : Element) :
    (s.recordElement l c f e).sequencer.copy = s.sequencer.copy := by
  unfold State.recordElement; dsimp only; split <;> simp

@[simp] theorem State.copy_storeElement (s : State) (e : Element) :
    (s.storeElement e).sequencer.copy = s.sequencer.copy := by
  unfold State.storeElement State.takeBoundary State.takeFirst
  simp only [State.takeElement_eq]
  (repeat' split) <;> simp

@[simp] theorem State.copy_fire (s : State) (st : Stage) (x : Bool) (i : Option (Fin 24)) (t b : StationTime) :
    (s.fire st x i t b).sequencer.copy = s.sequencer.copy := rfl

@[simp] theorem State.copy_count (s : State) (st : Stage) (i : Option (Fin 24)) (t b : StationTime) :
    (s.count st i t b).sequencer.copy = s.sequencer.copy := by
  unfold State.count; dsimp only; (repeat' split) <;> rfl

@[simp] theorem State.copy_evaluate (s : State) (st : Stage) (e : Element) :
    (s.evaluate st e).sequencer.copy = s.sequencer.copy := by
  unfold State.evaluate; dsimp only; split <;> simp

@[simp] theorem State.copy_seqCue (s : State) (i : Fin 24) (t b : StationTime) :
    (s.seqCue i t b).sequencer.copy = s.sequencer.copy := by
  unfold State.seqCue; dsimp only; (repeat' split) <;> simp

@[simp] theorem State.copy_takeWord (s : State) (w : Word) (b : StationTime) :
    (s.takeWord w b).sequencer.copy = s.sequencer.copy := by
  unfold State.takeWord; split <;> simp

@[simp] theorem Delivery.copy_takeNext (d : Delivery) (s : State) (u : Fin 4) (ws : List Word) (b : StationTime) :
    (d.takeNext s u ws b).2.sequencer.copy = s.sequencer.copy := by
  unfold Delivery.takeNext; split <;> simp

/-- What the sequencer keeps of an element depends on its copy alone (R57). -/
theorem Sequencer.copy_keep_congr {q r : Sequencer} (h : q.copy = r.copy) (e : Element) :
    (q.keep e).copy = (r.keep e).copy := by
  obtain ⟨hl, hc⟩ := Prod.mk.inj h
  simp only [Sequencer.copy, Sequencer.keep, hl, hc]

/-- An element evaluated or not, the sequencer keeps it (R57). -/
theorem State.copy_seqElement (s : State) (e : Element) :
    (s.seqElement e).sequencer.copy = (s.sequencer.keep e).copy := by
  unfold State.seqElement
  apply Sequencer.copy_keep_congr
  (repeat' split) <;> simp

/-! ## The sequencer takes the element once -/

/-- Where a delivery stands, the sequencer's copy is the one before the element or the one after it. -/
def Delivery.CopyFollows (q : Sequencer) (e : Element) (x : Delivery × State) : Prop :=
  x.2.sequencer.copy = if x.1.sequenced then (q.keep e).copy else q.copy

/-- Whether the sequencer has taken the element is not changed by another consumer. -/
theorem Delivery.takeNext_sequenced (d : Delivery) (s : State) (u : Fin 4) (ws : List Word) (b : StationTime) :
    (d.takeNext s u ws b).1.sequenced = d.sequenced := by
  unfold Delivery.takeNext; split <;> rfl

theorem Delivery.consume_sequenced (e : Element) (x : Delivery × State) (c : Consumer) :
    (Delivery.consume e x c).1.sequenced = (x.1.sequenced || c == .sequencer) := by
  obtain ⟨d, s⟩ := x
  cases c with
  | store => simp only [Delivery.consume]; split <;> simp
  | sequencer => simp only [Delivery.consume]; split <;> simp_all
  | mark => simp [Delivery.consume]
  | decoder u => simp only [Delivery.consume]; split <;> simp [Delivery.takeNext_sequenced]

theorem Delivery.consume_copyFollows {q : Sequencer} {e : Element} {x : Delivery × State} (c : Consumer)
    (h : Delivery.CopyFollows q e x) : Delivery.CopyFollows q e (Delivery.consume e x c) := by
  unfold Delivery.CopyFollows at *
  rw [Delivery.consume_sequenced]
  obtain ⟨d, s⟩ := x
  cases c with
  | store =>
    simp only [Delivery.consume]
    split <;> simpa using h
  | sequencer =>
    cases hd : d.sequenced
    · have hq : s.sequencer.copy = q.copy := by simpa [hd] using h
      simpa [Delivery.consume, hd, State.copy_seqElement] using Sequencer.copy_keep_congr hq e
    · simpa [Delivery.consume, hd] using h
  | mark => simpa [Delivery.consume] using h
  | decoder u =>
    simp only [Delivery.consume]
    split <;> simpa using h

/-- Once an order has named the sequencer, it has taken the element. -/
theorem Delivery.foldl_sequenced (e : Element) (l : List Consumer) (x : Delivery × State) :
    (l.foldl (Delivery.consume e) x).1.sequenced = (x.1.sequenced || l.contains .sequencer) := by
  induction l generalizing x with
  | nil => simp
  | cons c l ih =>
    rw [List.foldl_cons, ih, Delivery.consume_sequenced, List.contains_cons, Bool.or_assoc]
    congr 2
    exact Bool.beq_comm

theorem sequencer_mem_fullSchedule (sched : List Consumer) : .sequencer ∈ fullSchedule sched := by
  simp [fullSchedule]

/-- After a whole delivery the sequencer's copy is the element's (R57). -/
theorem State.deliver_copy (s : State) (sched : List Consumer) (e : Element) :
    (s.deliver sched e).sequencer.copy = (s.sequencer.keep e).copy := by
  have h : Delivery.CopyFollows s.sequencer e ((fullSchedule sched).foldl (Delivery.consume e) (Delivery.start, s)) :=
    foldl_induct (P := Delivery.CopyFollows s.sequencer e) _ (fun x c => Delivery.consume_copyFollows c) _ _ rfl
  unfold Delivery.CopyFollows at h
  rw [Delivery.foldl_sequenced, if_pos (by simp [sequencer_mem_fullSchedule])] at h
  exact h

theorem State.boundary_copy (s : State) (sched : List Consumer) :
    (s.boundary sched).sequencer.copy = (s.sequencer.keep (s.frontEnd.element s.time)).copy := by
  simp [State.boundary, State.deliver_copy]

/-! ## A boundary, in whatever order the consumers take its element -/

/-- SAMPLE_BOUNDARY where it is due. -/
theorem exec_sampleBoundary_due {s : State} (ht : s.time = s.frontEnd.nextBoundary) (hc : s.frontEnd.changing = 0)
    (sched : List Consumer) : exec (.sampleBoundary sched) s = .next (s.boundary sched) := by
  simp [exec, execSampleBoundary, State.boundaryDue, ht, hc]

/-- What the front end delivers outlives the load of a session that ends (R7, R8, R10, R12). -/
theorem State.Passes.frontEnd_fields {s t : State} (h : s.Passes t) :
    t.frontEnd.lastBoundary = s.frontEnd.lastBoundary ∧ t.frontEnd.lastLevels = s.frontEnd.lastLevels ∧
      t.frontEnd.filtered = s.frontEnd.filtered ∧ t.frontEnd.changes = s.frontEnd.changes ∧
      t.frontEnd.activity = s.frontEnd.activity := by
  obtain ⟨hf, -, -⟩ | ⟨-, hf, -, -⟩ := h.outcome <;> rw [hf] <;> exact ⟨rfl, rfl, rfl, rfl, rfl⟩

/-- The next boundary is the one the front end has set, where no segment was current or the session runs. -/
theorem State.Passes.nextBoundary_of_stays {s t : State} (h : s.Passes t)
    (hs : s.store.current = none ∨ t.session.state.runs = true) :
    t.frontEnd.nextBoundary = s.frontEnd.nextBoundary := by
  obtain ⟨hf, -, -⟩ | ⟨hc, -, -, hr⟩ := h.outcome
  · rw [hf]
  · rcases hs with hn | hr'
    · exact absurd hn hc
    · simp [hr] at hr'

/-- The next boundary is the first multiple of the draft's period, where the session ends (R12). -/
theorem State.Passes.nextBoundary_of_ends {s t : State} (h : s.Passes t) (hs : s.session.state.runs = true)
    (ht : t.session.state.runs = false) :
    t.frontEnd.nextBoundary = boundaryAfter s.time (period s.session.draft.general.rate) := by
  obtain ⟨-, hr, -⟩ | ⟨-, hf, -, -⟩ := h.outcome
  · simp [hr hs] at ht
  · rw [hf]; rfl

/-- The sequencer's last-change times after an element (R57). -/
theorem Sequencer.keep_lastChange (q : Sequencer) (e : Element) (c : Chan) :
    vget (q.keep e).lastChange c =
      if chanBit q.levels c = chanBit e.levels c then vget q.lastChange c else some e.boundary := by
  rw [Sequencer.keep, vget_ofFn]
  by_cases h : chanBit q.levels c = chanBit e.levels c <;> simp [h]

/-! ## A fire formed before the boundary (R26, R81) -/

/-- The state with another front end. -/
def State.setFrontEnd (s : State) (fe : FrontEnd) : State := { s with frontEnd := fe }

theorem State.boundary_eq (s : State) (sched : List Consumer) :
    s.boundary sched =
      (State.deliver (s.setFrontEnd (s.frontEnd.deliver s.time)) sched (s.frontEnd.element s.time)).deliverNotice := rfl

theorem State.ite_setFrontEnd {p : Prop} [Decidable p] (a b : State) (fe : FrontEnd) :
    (if p then a else b).setFrontEnd fe = if p then a.setFrontEnd fe else b.setFrontEnd fe :=
  apply_ite (State.setFrontEnd · fe) p a b

theorem State.triggerRecord_setFrontEnd (s : State) (fe : FrontEnd) (l : Layout) (k : Fin 8) (b : StationTime) :
    (s.setFrontEnd fe).triggerRecord l k b = (s.triggerRecord l k b).setFrontEnd fe := by
  have hr : (s.setFrontEnd fe).store.reference = s.store.reference := rfl
  unfold State.triggerRecord
  rw [hr]
  cases s.store.reference <;> rfl

theorem State.deliverNotice_setFrontEnd (s : State) (fe : FrontEnd) :
    (s.setFrontEnd fe).deliverNotice = s.deliverNotice.setFrontEnd fe := by
  unfold State.deliverNotice
  rw [State.ite_setFrontEnd]
  rfl

theorem State.checkReady_setFrontEnd (s : State) (fe : FrontEnd) :
    (s.setFrontEnd fe).checkReady = s.checkReady.setFrontEnd fe := by
  have hs : (s.setFrontEnd fe).store = s.store := rfl
  unfold State.checkReady
  rw [hs]
  split
  · split
    · rfl
    · rw [State.ite_setFrontEnd]
      rfl
  · rfl

/-- A trigger does not look at the front end (R25). -/
theorem State.trigger_setFrontEnd (s : State) (fe : FrontEnd) (l : Layout) (c : Current) (o : Offer) (late : Bool) :
    (s.setFrontEnd fe).trigger l c o late = (s.trigger l c o late).setFrontEnd fe := by
  have hr : ∀ b, ((s.setFrontEnd fe).setHeader c.seg ((s.header c.seg).trigger l o)).triggerRecord l c.seg b =
      ((s.setHeader c.seg ((s.header c.seg).trigger l o)).triggerRecord l c.seg b).setFrontEnd fe :=
    fun b => (s.setHeader c.seg ((s.header c.seg).trigger l o)).triggerRecord_setFrontEnd fe l c.seg b
  have hh : (s.setFrontEnd fe).header c.seg = s.header c.seg := rfl
  unfold State.trigger
  rw [hh]
  cases c.taken <;> cases late <;> simp only [hr, Bool.false_eq_true, if_true, if_false]
  all_goals rw [← State.checkReady_setFrontEnd]
  · rw [← State.deliverNotice_setFrontEnd]; rfl
  · rfl
  · rw [← State.deliverNotice_setFrontEnd]; rfl
  · rfl

/-- What the store makes of an offer does not depend on the front end (R25, R27, R80). -/
theorem State.takeOffer_setFrontEnd (s : State) (fe : FrontEnd) (o : Offer) (late : Bool) :
    (s.setFrontEnd fe).takeOffer o late = (s.takeOffer o late).setFrontEnd fe := by
  have hs : (s.setFrontEnd fe).store = s.store := rfl
  have hh : ∀ k, (s.setFrontEnd fe).header k = s.header k := fun _ => rfl
  unfold State.takeOffer
  rw [hs]
  split
  · simp only [hh]
    split
    · exact s.trigger_setFrontEnd fe _ _ o late
    all_goals rfl
  · rfl

/-- Whether an offer has to wait depends on the front end only by whether the tick is a boundary. -/
theorem State.offer_setFrontEnd {s : State} {fe : FrontEnd}
    (he : ∀ c, (s.setFrontEnd fe).elementDue c = s.elementDue c) (o : Offer) (late : Bool) :
    (s.setFrontEnd fe).offer o late = (s.offer o late).setFrontEnd fe := by
  have hs : (s.setFrontEnd fe).store = s.store := rfl
  have hh : ∀ k, (s.setFrontEnd fe).header k = s.header k := fun _ => rfl
  unfold State.offer
  rw [hs]
  split
  · rw [State.ite_setFrontEnd, he, hh, State.takeOffer_setFrontEnd]
    rfl
  · rfl

theorem State.takeFire_setFrontEnd {s : State} {fe : FrontEnd}
    (he : ∀ c, (s.setFrontEnd fe).elementDue c = s.elementDue c) (f : Fire) :
    (s.setFrontEnd fe).takeFire f = (s.takeFire f).setFrontEnd fe := by
  have hm : (s.setFrontEnd fe).mark = s.mark := rfl
  have hb : (s.setFrontEnd fe).bus = s.bus := rfl
  have hc : (s.setFrontEnd fe).currentState = s.currentState := rfl
  have ho := State.offer_setFrontEnd he f.offer false
  unfold State.takeFire
  rw [hm, hb, hc, ho]
  split
  · rw [State.ite_setFrontEnd, State.ite_setFrontEnd]
    rfl
  · rfl
  · rfl

/-- Before and after the front end has delivered its element, the tick is a boundary (R6, R80). -/
theorem State.elementDue_delivered {s : State} (ht : s.time = s.frontEnd.nextBoundary) (c : Current) :
    (s.setFrontEnd (s.frontEnd.deliver s.time)).elementDue c = s.elementDue c := by
  simp [State.elementDue, State.setFrontEnd, FrontEnd.deliver, ht]

/-- A fire handed over is taken alike before and after the front end has delivered the element of the tick. -/
theorem State.takeHanded_delivered {s : State} (ht : s.time = s.frontEnd.nextBoundary) {f : Fire}
    (hf : s.mark.handed = some f) :
    (s.setFrontEnd (s.frontEnd.deliver s.time)).takeHanded = s.takeHanded.setFrontEnd (s.frontEnd.deliver s.time) := by
  have hf' : (s.setFrontEnd (s.frontEnd.deliver s.time)).mark.handed = some f := hf
  rw [State.takeHanded_of_some hf, State.takeHanded_of_some hf']
  exact State.takeFire_setFrontEnd (s := s.clearHanded)
    (fun c => State.elementDue_delivered (s := s.clearHanded) ht c) f

/-! ### A fire taken is no longer handed -/

@[simp] theorem State.handed_triggerRecord (s : State) (l : Layout) (k : Fin 8) (b : StationTime) :
    (s.triggerRecord l k b).mark.handed = s.mark.handed := by
  unfold State.triggerRecord; split <;> rfl

@[simp] theorem MarkUnit.handed_segmentReady (m : MarkUnit) : m.segmentReady.handed = m.handed := by
  unfold MarkUnit.segmentReady; (repeat' split) <;> rfl

@[simp] theorem State.handed_checkReady (s : State) : s.checkReady.mark.handed = s.mark.handed := by
  unfold State.checkReady; (repeat' split) <;> simp

@[simp] theorem State.handed_trigger (s : State) (l : Layout) (c : Current) (o : Offer) (late : Bool) :
    (s.trigger l c o late).mark.handed = s.mark.handed := by
  unfold State.trigger; (repeat' split) <;> simp

@[simp] theorem State.handed_takeOffer (s : State) (o : Offer) (late : Bool) :
    (s.takeOffer o late).mark.handed = s.mark.handed := by
  obtain h | ⟨l, c, -, -, ⟨-, h⟩ | ⟨-, x, h, -⟩⟩ := s.takeOffer_cases o late <;> simp [h]

@[simp] theorem State.handed_offer (s : State) (o : Offer) (late : Bool) :
    (s.offer o late).mark.handed = s.mark.handed := by
  obtain h | ⟨c, -, -, -, h⟩ := s.offer_cases o late <;> simp [h]

@[simp] theorem MarkUnit.handed_leadFire (m : MarkUnit) (c : MarkCfg) (f : Fire) (now : StationTime) :
    (m.leadFire c f now).handed = m.handed := by
  unfold MarkUnit.leadFire; split <;> rfl

@[simp] theorem State.handed_takeFire (s : State) (f : Fire) : (s.takeFire f).mark.handed = s.mark.handed := by
  obtain h | h | ⟨c, h⟩ := s.takeFire_cases f <;> simp [h]

/-- After the mark unit has taken its fire, none is handed to it (R67). -/
theorem State.handed_takeHanded (s : State) : s.takeHanded.mark.handed = none := by
  cases h : s.mark.handed with
  | none => rw [State.takeHanded_of_none h, h]
  | some f => rw [State.takeHanded_of_some h, State.handed_takeFire]; rfl

/-! ### The empty order begins with the fire and the store -/

theorem State.takeEarlierFire_of_earlier {s : State} {e : Element} {f : Fire} (h : s.mark.handed = some f)
    (hb : f.boundary ≠ e.boundary) : s.takeEarlierFire e = s.takeHanded := by
  simp only [State.takeEarlierFire, h, if_neg hb]

theorem State.takeEarlierFire_of_now {s : State} {e : Element}
    (h : ∀ f, s.mark.handed = some f → f.boundary = e.boundary) : s.takeEarlierFire e = s := by
  unfold State.takeEarlierFire
  split
  · rename_i f hf
    exact if_pos (h f hf)
  · rfl

/-- Under the empty order the earlier fire and then the store come first: two states in which the fire taken leads to
one and the same state are delivered alike. -/
theorem State.deliver_nil_congr {s t : State} {e : Element} (h : s.takeEarlierFire e = t.takeEarlierFire e) :
    s.deliver [] e = t.deliver [] e := by
  have hstore : ∀ u : State, Delivery.consume e (Delivery.start, u) .store =
      ({ Delivery.start with stored := true }, (u.takeEarlierFire e).storeElement e) := fun _ => rfl
  simp only [State.deliver, fullSchedule, List.nil_append, List.cons_append, List.foldl_cons, hstore, h]

/-- A fire formed before a boundary is taken before the store takes the boundary's element (R26, R81). -/
theorem State.boundary_nil_takeHanded {s : State} (ht : s.time = s.frontEnd.nextBoundary) {f : Fire}
    (hf : s.mark.handed = some f) (hb : f.boundary ≠ s.time) : s.boundary [] = s.takeHanded.boundary [] := by
  have hfe : s.takeHanded.frontEnd = s.frontEnd := by simp
  have htime : s.takeHanded.time = s.time := by simp
  rw [State.boundary_eq, State.boundary_eq, hfe, htime]
  refine congrArg State.deliverNotice (State.deliver_nil_congr ?_)
  have hl : (s.setFrontEnd (s.frontEnd.deliver s.time)).mark.handed = some f := hf
  have hr : (s.takeHanded.setFrontEnd (s.frontEnd.deliver s.time)).mark.handed = none := s.handed_takeHanded
  rw [State.takeEarlierFire_of_earlier hl hb, State.takeHanded_delivered ht hf,
    State.takeEarlierFire_of_now fun g hg => by simp [hr] at hg]

/-! ## The turns of a decoder unit -/

/-- The filter takes a unit's completed words one after another (R119). -/
def State.takeWords (s : State) (ws : List Word) (b : StationTime) : State := ws.foldl (fun s w => s.takeWord w b) s

@[simp] theorem State.takeWords_nil (s : State) (b : StationTime) : s.takeWords [] b = s := rfl

@[simp] theorem State.takeWords_cons (s : State) (w : Word) (ws : List Word) (b : StationTime) :
    s.takeWords (w :: ws) b = (s.takeWord w b).takeWords ws b := rfl

theorem State.takeWords_frame (s : State) (ws : List Word) (b : StationTime) :
    (s.takeWords ws b).store = s.store ∧ (s.takeWords ws b).session = s.session ∧
      (s.takeWords ws b).decoders = s.decoders :=
  ⟨foldl_keeps State.store _ (fun s w => by simp) ws s, foldl_keeps State.session _ (fun s w => by simp) ws s,
    foldl_keeps State.decoders _ (fun s w => by simp) ws s⟩

/-- Unit `u` takes an element whole: first the element, then, in its four turns, the filter takes its words (R98). -/
def State.unitTakes (e : Element) (s : State) (u : Fin 4) : State :=
  (s.decElement u e).2.takeWords ((s.decElement u e).1.take 4) e.boundary

theorem Delivery.takeNext_eq (d : Delivery) (s : State) (u : Fin 4) (ws : List Word) (b : StationTime) :
    d.takeNext s u ws b = ({ d with words := vset d.words u (some ws.tail) }, s.takeWords (ws.take 1) b) := by
  cases ws <;> rfl

/-- At a later turn of a unit the filter takes the next of its words. -/
theorem Delivery.consume_next {d : Delivery} {u : Fin 4} {ws : List Word} (h : vget d.words u = some ws) (e : Element)
    (s : State) :
    Delivery.consume e (d, s) (.decoder u) =
      ({ d with words := vset d.words u (some ws.tail) }, s.takeWords (ws.take 1) e.boundary) := by
  simp only [Delivery.consume, h, Delivery.takeNext_eq]

/-- A unit's first turn is its taking of the element, followed by a turn for the words it completes. -/
theorem Delivery.consume_first {d : Delivery} {u : Fin 4} (h : vget d.words u = none) (e : Element) (s : State) :
    Delivery.consume e (d, s) (.decoder u) =
      Delivery.consume e ({ d with words := vset d.words u (some (s.decElement u e).1) }, (s.decElement u e).2)
        (.decoder u) := by
  have hset : ∀ a b : Option (List Word), vset (vset d.words u a) u b = vset d.words u b := fun a b => by simp [vset]
  simp only [Delivery.consume, h, vget_vset_same, Delivery.takeNext_eq, hset]

/-- `n` further turns of a unit that has completed the words `ws`. -/
theorem Delivery.foldl_next (e : Element) (u : Fin 4) (n : Nat) :
    ∀ {d : Delivery} {ws : List Word} (s : State), vget d.words u = some ws →
      ((List.replicate n (Consumer.decoder u)).foldl (Delivery.consume e) (d, s)).2 =
          s.takeWords (ws.take n) e.boundary ∧
        ∀ v, v ≠ u →
          vget ((List.replicate n (Consumer.decoder u)).foldl (Delivery.consume e) (d, s)).1.words v =
            vget d.words v := by
  induction n with
  | zero => intro d ws s _; exact ⟨rfl, fun _ _ => rfl⟩
  | succ n ih =>
    intro d ws s h
    rw [List.replicate_succ, List.foldl_cons, Delivery.consume_next h]
    obtain ⟨hs, hd⟩ := ih (d := { d with words := vset d.words u (some ws.tail) })
      (s.takeWords (ws.take 1) e.boundary) (vget_vset_same d.words u (some ws.tail))
    refine ⟨?_, fun v hv => (hd v hv).trans (vget_vset_other _ _ hv)⟩
    rw [hs]
    cases ws <;> simp

/-- The four turns of a unit that has not taken the element: it takes it whole. -/
theorem Delivery.foldl_unit {d : Delivery} {u : Fin 4} (h : vget d.words u = none) (e : Element) (s : State) :
    ((List.replicate 4 (Consumer.decoder u)).foldl (Delivery.consume e) (d, s)).2 = s.unitTakes e u ∧
      ∀ v, v ≠ u →
        vget ((List.replicate 4 (Consumer.decoder u)).foldl (Delivery.consume e) (d, s)).1.words v =
          vget d.words v := by
  have hfirst : (List.replicate 4 (Consumer.decoder u)).foldl (Delivery.consume e) (d, s) =
      (List.replicate 4 (Consumer.decoder u)).foldl (Delivery.consume e)
        ({ d with words := vset d.words u (some (s.decElement u e).1) }, (s.decElement u e).2) := by
    rw [List.replicate_succ, List.foldl_cons, Delivery.consume_first h, ← List.foldl_cons]
  obtain ⟨hs, hd⟩ := Delivery.foldl_next e u 4 (d := { d with words := vset d.words u (some (s.decElement u e).1) })
    (s.decElement u e).2 (vget_vset_same d.words u (some (s.decElement u e).1))
  rw [hfirst]
  exact ⟨hs, fun v hv => (hd v hv).trans (vget_vset_other _ _ hv)⟩

/-- Units in turn, each taking the element whole. -/
theorem Delivery.foldl_units (e : Element) (l : List (Fin 4)) :
    ∀ {d : Delivery} (s : State), l.Nodup → (∀ u ∈ l, vget d.words u = none) →
      ((l.flatMap fun u => List.replicate 4 (Consumer.decoder u)).foldl (Delivery.consume e) (d, s)).2 =
        l.foldl (State.unitTakes e) s := by
  induction l with
  | nil => intro d s _ _; rfl
  | cons u l ih =>
    intro d s hnodup hnone
    obtain ⟨hu, hl⟩ := List.nodup_cons.1 hnodup
    obtain ⟨hs, hd⟩ := Delivery.foldl_unit (hnone u List.mem_cons_self) e s
    rw [List.flatMap_cons, List.foldl_append, List.foldl_cons, ← hs]
    generalize (List.replicate 4 (Consumer.decoder u)).foldl (Delivery.consume e) (d, s) = x at hd ⊢
    refine ih x.2 hl fun v hv => ?_
    exact (hd v (ne_of_mem_of_not_mem hv hu)).trans (hnone v (List.mem_cons_of_mem u hv))

/-- The empty order: the store takes the element, then the sequencer, then each unit whole (R9, R98, R99). -/
theorem State.deliver_nil {s : State} {e : Element} (h : ∀ f, s.mark.handed = some f → f.boundary = e.boundary) :
    s.deliver [] e = (List.finRange 4).foldl (State.unitTakes e) ((s.storeElement e).seqElement e) := by
  have hstore : Delivery.consume e (Delivery.start, s) .store =
      ({ Delivery.start with stored := true }, (s.takeEarlierFire e).storeElement e) := rfl
  have hseq : ∀ t : State, Delivery.consume e ({ Delivery.start with stored := true }, t) .sequencer =
      ({ Delivery.start with stored := true, sequenced := true }, t.seqElement e) := fun _ => rfl
  simp only [State.deliver, fullSchedule, List.nil_append, List.cons_append, List.foldl_cons, hstore, hseq,
    State.takeEarlierFire_of_now h]
  exact Delivery.foldl_units e _ _ (List.nodup_finRange 4) fun u _ => vget_replicate none u

/-! ## One unit's element beside the others' -/

/-- What a unit makes of an element depends on the session, on whether the units run and on itself. -/
theorem State.decElement_congr {s t : State} {u : Fin 4} (hs : t.session = s.session)
    (hr : t.decoders.running = s.decoders.running) (hu : vget t.decoders.units u = vget s.decoders.units u)
    (e : Element) :
    (t.decElement u e).1 = (s.decElement u e).1 ∧
      vget (t.decElement u e).2.decoders.units u = vget (s.decElement u e).2.decoders.units u := by
  unfold State.decElement
  rw [hr]
  split
  · simp [hs, hu]
  · exact ⟨rfl, hu⟩

/-- A unit's element leaves the other units and their running alone. -/
theorem State.decElement_other (s : State) (u : Fin 4) (e : Element) :
    (s.decElement u e).2.decoders.running = s.decoders.running ∧
      ∀ v, v ≠ u → vget (s.decElement u e).2.decoders.units v = vget s.decoders.units v := by
  unfold State.decElement
  split
  · exact ⟨rfl, fun v hv => vget_vset_other _ _ hv⟩
  · exact ⟨rfl, fun _ _ => rfl⟩

theorem State.unitTakes_frame (e : Element) (s : State) (u : Fin 4) :
    (s.unitTakes e u).store = s.store ∧ (s.unitTakes e u).session = s.session ∧
      (s.unitTakes e u).decoders = (s.decElement u e).2.decoders := by
  obtain ⟨hst, hse, hd⟩ := (s.decElement u e).2.takeWords_frame ((s.decElement u e).1.take 4) e.boundary
  exact ⟨hst.trans (by simp), hse.trans (by simp), hd⟩

/-- A unit that has its turn later finds what it would have found before. -/
theorem State.decElement_unitTakes {s : State} {u v : Fin 4} (h : v ≠ u) (e : Element) :
    ((s.unitTakes e u).decElement v e).1 = (s.decElement v e).1 ∧
      vget ((s.unitTakes e u).decElement v e).2.decoders.units v = vget (s.decElement v e).2.decoders.units v := by
  obtain ⟨-, hs, hd⟩ := s.unitTakes_frame e u
  obtain ⟨hr, hu⟩ := s.decElement_other u e
  exact State.decElement_congr hs (hd ▸ hr) (hd ▸ hu v h) e

/-- After units have taken an element in turn: the store and the session stay, and each of the units is as its own
element leaves it. -/
theorem State.foldl_unitTakes (e : Element) (l : List (Fin 4)) :
    ∀ s : State, l.Nodup →
      (l.foldl (State.unitTakes e) s).store = s.store ∧ (l.foldl (State.unitTakes e) s).session = s.session ∧
        ∀ u, vget (l.foldl (State.unitTakes e) s).decoders.units u =
          if u ∈ l then vget (s.decElement u e).2.decoders.units u else vget s.decoders.units u := by
  induction l with
  | nil => intro s _; simp
  | cons v l ih =>
    intro s hnodup
    obtain ⟨hv, hl⟩ := List.nodup_cons.1 hnodup
    obtain ⟨hst, hse, hd⟩ := s.unitTakes_frame e v
    obtain ⟨hst', hse', hunits⟩ := ih (s.unitTakes e v) hl
    refine ⟨hst'.trans hst, hse'.trans hse, fun u => (hunits u).trans ?_⟩
    by_cases hu : u = v
    · subst hu
      simp [hv, hd]
    · simp [hu, State.decElement_unitTakes hu, hd, (s.decElement_other v e).2 u hu]

/-! ## Words and cues beside the units -/

/-- The state with other decoder units, sequencer and mark unit. -/
def State.withParts (s : State) (d : Decoders) (q : Sequencer) (m : MarkUnit) : State :=
  { s with decoders := d, sequencer := q, mark := m }

theorem State.offerWord_withParts (s : State) (d : Decoders) (q : Sequencer) (m : MarkUnit) (i : QueueId) (w : Word) :
    (s.withParts d q m).offerWord i w = (s.offerWord i w).withParts d q m := by
  simp only [State.offerWord, apply_ite (State.withParts · d q m)]
  rfl

theorem State.routeTo_withParts (s : State) (d : Decoders) (q : Sequencer) (m : MarkUnit) (x : Dest) (w : Word) :
    (s.withParts d q m).routeTo x w = (s.routeTo x w).withParts d q m := by
  cases x with
  | queue i => exact s.offerWord_withParts d q m i w
  | latch n => rfl
  | discard => rfl

/-- The state with one more completed word (R119, R133). -/
def State.countWord (s : State) : State := { s with words := { s.words with completed := s.words.completed + 1 } }

/-- Where the filter sends a word (R119). -/
def State.wordDest (s : State) (w : Word) : Dest :=
  match s.matchWord w with
  | some (_, x) => x.dest
  | none => s.defaultDest w.decoder

/-- The filter counts a word, writes the matched entry and routes it (R119). -/
theorem State.filterWord_eq (s : State) (w : Word) :
    s.filterWord w = s.countWord.routeTo (s.wordDest w) { w with matched := (s.matchWord w).map (·.1) } := by
  have hm : State.matchWord { s with words := { s.words with completed := s.words.completed + 1 } } w =
    s.matchWord w := rfl
  simp only [State.filterWord, State.wordDest, hm]
  cases s.matchWord w <;> rfl

/-- The filter looks at the units for a default destination alone, and not at the sequencer or the mark unit (R119). -/
theorem State.filterWord_withParts {s : State} {d : Decoders} (q : Sequencer) (m : MarkUnit) (w : Word)
    (hd : ∀ u, (vget d.units u).cfg = (vget s.decoders.units u).cfg) :
    (s.withParts d q m).filterWord w = (s.filterWord w).withParts d q m := by
  have hmatch : (s.withParts d q m).matchWord w = s.matchWord w := rfl
  have hdest : (s.withParts d q m).wordDest w = s.wordDest w := by
    simp only [State.wordDest, State.defaultDest, State.withParts, State.matchWord, hd]
  rw [State.filterWord_eq, State.filterWord_eq, hdest, hmatch]
  exact s.countWord.routeTo_withParts d q m _ _

/-- Whether a word raises a cue depends on the filter's entries alone (R120). -/
theorem State.cueOf_congr {s t : State} (h : t.words = s.words) (w : Word) : t.cueOf w = s.cueOf w := by
  simp only [State.cueOf, State.matchWord, h]

section cues

variable {s t : State} (hq : t.sequencer = s.sequencer) (hs : t.session = s.session) (hm : t.mark = s.mark)
include hq hs hm

theorem State.count_congr (st : Stage) (i : Option (Fin 24)) (x b : StationTime) :
    (t.count st i x b).sequencer = (s.count st i x b).sequencer ∧
      (t.count st i x b).mark = (s.count st i x b).mark := by
  simp only [State.count, hq]
  split
  · exact ⟨rfl, hm⟩
  · split
    · simp [State.fire, hs, hm]
    · exact ⟨rfl, hm⟩

/-- What a cue does to the sequencer and to the fire it may hand over depends on the sequencer, the session and the mark
unit alone (R62–R67). -/
theorem State.seqCue_congr (i : Fin 24) (x b : StationTime) :
    (t.seqCue i x b).sequencer = (s.seqCue i x b).sequencer ∧ (t.seqCue i x b).mark = (s.seqCue i x b).mark := by
  simp only [State.seqCue, hq]
  split
  · split
    · split
      · exact State.count_congr hq hs hm _ _ x b
      · exact ⟨hq, hm⟩
    all_goals exact ⟨hq, hm⟩
  · exact ⟨hq, hm⟩

end cues

/-- A state that keeps everything but the sequencer and the mark unit. -/
theorem State.eq_withParts {s t : State}
    (h : t.pending = s.pending ∧ t.time = s.time ∧ t.pins = s.pins ∧ t.frontEnd = s.frontEnd ∧
      t.decoders = s.decoders ∧ t.words = s.words ∧ t.bus = s.bus ∧ t.peers = s.peers ∧ t.asks = s.asks ∧
      t.view = s.view ∧ t.choice = s.choice ∧ t.store = s.store ∧ t.session = s.session ∧ t.order = s.order) :
    t = s.withParts s.decoders t.sequencer t.mark := by
  cases s
  cases t
  simp_all [State.withParts]

/-! ## States that differ in their units' assembly alone -/

/-- `t` is `s` but for the decoder units, and every unit has the configuration it has in `s`. -/
def State.ButUnits (s t : State) : Prop :=
  t = s.withParts t.decoders s.sequencer s.mark ∧
    ∀ u, (vget t.decoders.units u).cfg = (vget s.decoders.units u).cfg

theorem State.ButUnits.refl (s : State) : s.ButUnits s := ⟨rfl, fun _ => rfl⟩

theorem State.ButUnits.trans {s u t : State} (hsu : s.ButUnits u) (hut : u.ButUnits t) : s.ButUnits t := by
  obtain ⟨hu, hcfg⟩ := hsu
  obtain ⟨ht, hcfg'⟩ := hut
  refine ⟨?_, fun v => (hcfg' v).trans (hcfg v)⟩
  rw [hu] at ht
  exact ht

theorem State.ButUnits.fields {s t : State} (h : s.ButUnits t) :
    t.words = s.words ∧ t.sequencer = s.sequencer ∧ t.session = s.session ∧ t.mark = s.mark := by
  obtain ⟨ht, -⟩ := h
  rw [ht]
  exact ⟨rfl, rfl, rfl, rfl⟩

/-- A unit keeps its configuration when it takes an element (R96). -/
theorem DecUnit.take_cfg (x : DecUnit) (u : Fin 4) (p : Nat) (seg : Fin 8) (e : Element) :
    (x.take u p seg e).2.cfg = x.cfg := by
  unfold DecUnit.take
  split
  · rfl
  · split <;> simp_all

/-- A unit's element changes the units' assembly alone. -/
theorem State.decElement_butUnits (s : State) (u : Fin 4) (e : Element) : s.ButUnits (s.decElement u e).2 := by
  unfold State.decElement
  split
  · refine ⟨rfl, fun v => ?_⟩
    simp only [vget_vset]
    split
    · subst v
      exact DecUnit.take_cfg _ _ _ _ _
    · rfl
  · exact .refl s

theorem State.ButUnits.filterWord {s t : State} (h : s.ButUnits t) (w : Word) :
    (s.filterWord w).ButUnits (t.filterWord w) := by
  obtain ⟨ht, hcfg⟩ := h
  have hf : t.filterWord w = (s.filterWord w).withParts t.decoders s.sequencer s.mark :=
    (congrArg (State.filterWord · w) ht).trans (State.filterWord_withParts _ _ w hcfg)
  refine ⟨by simpa using hf, by simpa using hcfg⟩

theorem State.ButUnits.seqCue {s t : State} (h : s.ButUnits t) (i : Fin 24) (x b : StationTime) :
    (s.seqCue i x b).ButUnits (t.seqCue i x b) := by
  obtain ⟨-, hq, hse, hm⟩ := h.fields
  obtain ⟨hq', hm'⟩ := State.seqCue_congr hq hse hm i x b
  obtain ⟨ht, hcfg⟩ := h
  refine ⟨?_, by simpa using hcfg⟩
  have hdec : (t.seqCue i x b).decoders = t.decoders := by simp
  have hs := State.eq_withParts (State.seqCue_frame i x b s)
  rw [hdec]
  calc t.seqCue i x b
      = t.withParts t.decoders (t.seqCue i x b).sequencer (t.seqCue i x b).mark :=
        State.eq_withParts (State.seqCue_frame i x b t)
    _ = t.withParts t.decoders (s.seqCue i x b).sequencer (s.seqCue i x b).mark := by rw [hq', hm']
    _ = s.withParts t.decoders (s.seqCue i x b).sequencer (s.seqCue i x b).mark := by
        have := congrArg (State.withParts · t.decoders (s.seqCue i x b).sequencer (s.seqCue i x b).mark) ht
        exact this
    _ = (s.seqCue i x b).withParts t.decoders (s.seqCue i x b).sequencer (s.seqCue i x b).mark :=
        (congrArg (State.withParts · t.decoders (s.seqCue i x b).sequencer (s.seqCue i x b).mark) hs).symm

/-- A word with its cue is taken alike whatever the units hold in hand. -/
theorem State.ButUnits.takeWord {s t : State} (h : s.ButUnits t) (w : Word) (b : StationTime) :
    (s.takeWord w b).ButUnits (t.takeWord w b) := by
  obtain ⟨hw, -, -, -⟩ := h.fields
  unfold State.takeWord
  rw [State.cueOf_congr hw]
  split
  · exact (h.filterWord w).seqCue _ _ _
  · exact h.filterWord w

/-! ## The units' words at a boundary -/

/-- A unit that completes no word leaves everything but the units as it was. -/
theorem State.unitTakes_silent {s : State} {u : Fin 4} {e : Element} (h : (s.decElement u e).1 = []) :
    s.ButUnits (s.unitTakes e u) := by
  simpa [State.unitTakes, h] using s.decElement_butUnits u e

/-- A unit that completes one word has the filter take it. -/
theorem State.unitTakes_one {s : State} {u : Fin 4} {e : Element} {w : Word} (h : (s.decElement u e).1 = [w]) :
    (s.takeWord w e.boundary).ButUnits (s.unitTakes e u) := by
  simpa [State.unitTakes, h] using (s.decElement_butUnits u e).takeWord w e.boundary

/-- Units that complete no word leave everything but the units as it was. -/
theorem State.foldl_unitTakes_silent (e : Element) (l : List (Fin 4)) :
    ∀ s : State, l.Nodup → (∀ u ∈ l, (s.decElement u e).1 = []) → s.ButUnits (l.foldl (State.unitTakes e) s) := by
  induction l with
  | nil => intro s _ _; exact .refl s
  | cons v l ih =>
    intro s hnodup hnil
    obtain ⟨hv, hl⟩ := List.nodup_cons.1 hnodup
    refine (State.unitTakes_silent (hnil v List.mem_cons_self)).trans (ih _ hl fun u hu => ?_)
    exact (State.decElement_unitTakes (ne_of_mem_of_not_mem hu hv) e).1.trans (hnil u (List.mem_cons_of_mem v hu))

/-- Units of which one completes one word and the others none: the filter takes that word (R119). -/
theorem State.foldl_unitTakes_one (e : Element) {u : Fin 4} {w : Word} (l : List (Fin 4)) :
    ∀ s : State, l.Nodup → u ∈ l → (s.decElement u e).1 = [w] → (∀ v ∈ l, v ≠ u → (s.decElement v e).1 = []) →
      (s.takeWord w e.boundary).ButUnits (l.foldl (State.unitTakes e) s) := by
  induction l with
  | nil => intro s _ hu; simp at hu
  | cons v l ih =>
    intro s hnodup hu hw hnil
    obtain ⟨hv, hl⟩ := List.nodup_cons.1 hnodup
    have later : ∀ x ∈ l, x ≠ u → ((s.unitTakes e v).decElement x e).1 = [] := fun x hx hxu =>
      (State.decElement_unitTakes (ne_of_mem_of_not_mem hx hv) e).1.trans (hnil x (List.mem_cons_of_mem v hx) hxu)
    by_cases huv : u = v
    · subst huv
      exact (State.unitTakes_one hw).trans
        (State.foldl_unitTakes_silent e l _ hl fun x hx => later x hx (ne_of_mem_of_not_mem hx hv))
    · have hv0 : (s.decElement v e).1 = [] := hnil v List.mem_cons_self fun h => huv h.symm
      have hul : u ∈ l := (List.mem_cons.1 hu).resolve_left huv
      exact ((State.unitTakes_silent hv0).takeWord w e.boundary).trans
        (ih _ hl hul ((State.decElement_unitTakes huv e).1.trans hw) later)

/-! ## The boundary under the empty order -/

/-- The state in which the store has taken a boundary's element, the front end having delivered it. -/
def State.storedAt (s : State) : State :=
  State.storeElement (s.setFrontEnd (s.frontEnd.deliver s.time)) (s.frontEnd.element s.time)

/-- What follows the store under the empty order: the sequencer takes the element, then each unit whole, and a notice on
its way is delivered. -/
def State.afterStore (s : State) (e : Element) : State :=
  ((List.finRange 4).foldl (State.unitTakes e) (s.seqElement e)).deliverNotice

theorem State.boundary_nil {s : State} (h : ∀ f, s.mark.handed = some f → f.boundary = s.time) :
    s.boundary [] = s.storedAt.afterStore (s.frontEnd.element s.time) := by
  rw [State.boundary_eq,
    State.deliver_nil (s := s.setFrontEnd (s.frontEnd.deliver s.time)) (e := s.frontEnd.element s.time) h]
  rfl

/-- The sequencer's element leaves a unit's element as it would have been. -/
theorem State.decElement_seqElement (s : State) (u : Fin 4) (e : Element) :
    ((s.seqElement e).decElement u e).1 = (s.decElement u e).1 ∧
      vget ((s.seqElement e).decElement u e).2.decoders.units u = vget (s.decElement u e).2.decoders.units u :=
  State.decElement_congr (by simp) (by simp) (by simp) e

/-- What a notice on its way does to the sequencer depends on the sequencer alone (R69). -/
theorem State.deliverNotice_congr {s t : State} (h : t.sequencer = s.sequencer) :
    t.deliverNotice.sequencer = s.deliverNotice.sequencer := by
  unfold State.deliverNotice
  rw [h]
  split
  · rfl
  · exact h

/-- The filter's work after the sequencer's element is what it would have been before. -/
theorem State.filterWord_seqElement (s : State) (e : Element) (w : Word) :
    ((s.seqElement e).filterWord w).words = (s.filterWord w).words := by
  have h : s.seqElement e = s.withParts s.decoders (s.seqElement e).sequencer (s.seqElement e).mark :=
    State.eq_withParts (State.seqElement_frame e s)
  rw [h, State.filterWord_withParts _ _ w fun _ => rfl]
  rfl

/-- The word memory after a word and its cue is as the filter leaves it. -/
theorem State.takeWord_words (s : State) (w : Word) (b : StationTime) :
    (s.takeWord w b).words = (s.filterWord w).words := by
  unfold State.takeWord; split <;> simp

/-- The sequencer and the mark unit after a word are as its cue, if it raises one, leaves them (R120). -/
theorem State.takeWord_cue (s : State) (w : Word) (b : StationTime) :
    (s.takeWord w b).sequencer = (match s.cueOf w with | some i => s.seqCue i w.stop b | none => s).sequencer ∧
      (s.takeWord w b).mark = (match s.cueOf w with | some i => s.seqCue i w.stop b | none => s).mark := by
  unfold State.takeWord
  cases s.cueOf w with
  | none => exact ⟨by simp, by simp⟩
  | some i => exact State.seqCue_congr (by simp) (by simp) (by simp) i w.stop b

/-! ## Sample boundaries -/

/-- What a boundary does in whatever order the consumers take its element (R6–R10, R12, R57). -/
theorem State.boundary_anyOrder (s : State) (sched : List Consumer) :
    (s.boundary sched).frontEnd.lastBoundary = some s.time ∧
      (s.boundary sched).frontEnd.lastLevels = s.frontEnd.filtered ∧
      (s.boundary sched).frontEnd.filtered = s.frontEnd.filtered ∧
      (∀ c, vget (s.boundary sched).frontEnd.changes c = 0) ∧
      (∀ c, chanBit (s.boundary sched).frontEnd.activity c =
        (chanBit s.frontEnd.activity c || chanBit s.frontEnd.filtered c != chanBit s.frontEnd.lastLevels c ||
          vget s.frontEnd.changes c == 2)) ∧
      (s.boundary sched).sequencer.levels = s.frontEnd.filtered ∧
      (∀ c, vget (s.boundary sched).sequencer.lastChange c =
        if chanBit s.sequencer.levels c = chanBit s.frontEnd.filtered c then vget s.sequencer.lastChange c
        else some s.time) ∧
      ∀ place, (s.boundary sched).store.read place = s.store.read place := by
  obtain ⟨hlast, hlevels, hfiltered, hchanges, hactivity⟩ := (s.boundary_passes sched).frontEnd_fields
  obtain ⟨hcopy, hchange⟩ := Prod.mk.inj (s.boundary_copy sched)
  refine ⟨hlast, hlevels, hfiltered, fun c => ?_, fun c => ?_, hcopy, fun c => ?_, fun place => ?_⟩
  · rw [hchanges]; exact vget_replicate _ c
  · rw [hactivity]; exact s.frontEnd.deliver_activity s.time c
  · rw [hchange]; exact Sequencer.keep_lastChange _ _ c
  · simp [Store.read]

/-- The store and the session stay as the store leaves them, and each unit is as its own element leaves it (R9, R98). -/
theorem State.afterStore_units (x : State) (e : Element) :
    (x.afterStore e).store = x.store ∧ (x.afterStore e).session = x.session ∧
      ∀ u, vget (x.afterStore e).decoders.units u = vget (x.decElement u e).2.decoders.units u := by
  obtain ⟨hstore, hsession, hunits⟩ :=
    State.foldl_unitTakes e (List.finRange 4) (x.seqElement e) (List.nodup_finRange 4)
  refine ⟨by simp [State.afterStore, hstore], by simp [State.afterStore, hsession], fun u => ?_⟩
  simp [State.afterStore, hunits, (x.decElement_seqElement u e).2]

/-- Where no unit completes a word, the sequencer's element has the last word. -/
theorem State.afterStore_silent {x : State} {e : Element} (h : ∀ u, (x.decElement u e).1 = []) :
    (x.afterStore e).words = x.words ∧ (x.afterStore e).mark = (x.seqElement e).mark ∧
      (x.afterStore e).sequencer = (x.seqElement e).deliverNotice.sequencer := by
  have hr := State.foldl_unitTakes_silent e (List.finRange 4) (x.seqElement e) (List.nodup_finRange 4)
    fun u _ => (x.decElement_seqElement u e).1.trans (h u)
  obtain ⟨hw, hq, -, hm⟩ := hr.fields
  exact ⟨by simp [State.afterStore, hw], by simp [State.afterStore, hm], State.deliverNotice_congr hq⟩

/-- The sequencer's element and then the cue that a word raises, if it raises one (R62, R120). -/
def State.seqElementCue (x : State) (e : Element) (w : Word) : State :=
  match x.cueOf w with
  | some i => (x.seqElement e).seqCue i w.stop e.boundary
  | none => x.seqElement e

/-- Where one unit completes one word, the filter takes it after the sequencer's element, and then its cue follows
(R119, R120). -/
theorem State.afterStore_oneWord {x : State} {e : Element} {u : Fin 4} {w : Word} (hw : (x.decElement u e).1 = [w])
    (hnil : ∀ v, v ≠ u → (x.decElement v e).1 = []) :
    (x.afterStore e).words = (x.filterWord w).words ∧ (x.afterStore e).mark = (x.seqElementCue e w).mark ∧
      (x.afterStore e).sequencer = (x.seqElementCue e w).deliverNotice.sequencer := by
  have hr := State.foldl_unitTakes_one e (List.finRange 4) (x.seqElement e) (List.nodup_finRange 4)
    (List.mem_finRange u) ((x.decElement_seqElement u e).1.trans hw)
    fun v _ hv => (x.decElement_seqElement v e).1.trans (hnil v hv)
  obtain ⟨hwords, hq, -, hm⟩ := hr.fields
  obtain ⟨hcq, hcm⟩ := (x.seqElement e).takeWord_cue w e.boundary
  rw [State.cueOf_congr (s := x) (by simp) w] at hcq hcm
  refine ⟨?_, ?_, State.deliverNotice_congr (hq.trans hcq)⟩
  · simp [State.afterStore, hwords, State.takeWord_words, State.filterWord_seqElement]
  · simp only [State.afterStore, State.deliverNotice_frame, hm, hcm]
    rfl

/-- Settles O18: under every order the front end's delivery stands, the sequencer keeps the element once, and the
session stays or ends; under the empty order an earlier fire and the store come first, and each unit then takes the
element whole. -/
theorem sampleBoundaryDelivers : Obligations.SampleBoundaryDelivers := by
  unfold Obligations.SampleBoundaryDelivers
  refine ⟨fun sched s ht hc => ?_, fun s f ht hc hf hb => ?_, fun s ht hc hnow => ?_⟩
  · have hp := s.boundary_passes sched
    obtain ⟨hlast, hlevels, hfiltered, hchanges, hactivity, hcopy, hchange, hread⟩ := s.boundary_anyOrder sched
    exact ⟨_, exec_sampleBoundary_due ht hc sched, hlast, hlevels, hfiltered, hchanges, hactivity,
      fun h => hp.nextBoundary_of_stays h, fun hr hr' => hp.nextBoundary_of_ends hr hr', hcopy, hchange, hread⟩
  · have ht' : s.takeHanded.time = s.takeHanded.frontEnd.nextBoundary := by simpa using ht
    have hc' : s.takeHanded.frontEnd.changing = 0 := by simpa using hc
    rw [exec_sampleBoundary_due ht hc, exec_sampleBoundary_due ht' hc', State.boundary_nil_takeHanded ht hf hb]
  · refine ⟨_, exec_sampleBoundary_due ht hc [], ?_⟩
    rw [State.boundary_nil hnow]
    obtain ⟨hstore, hsession, hunits⟩ := s.storedAt.afterStore_units (s.frontEnd.element s.time)
    exact ⟨hstore, hsession, hunits, fun hnil => State.afterStore_silent hnil,
      fun u w hw hnil => State.afterStore_oneWord hw hnil⟩

end Sys2Proof.Machine
end

section
/-! PROOFS. About the step on an empty queue (log entries 1, 4 and 26): a due command, the taking of a fire handed over,
or one tick; and that every command answers a next state. -/

namespace Sys2Proof.Machine

/-- No command faults and none is refused. -/
theorem exec_answers (c : Instr) (s : State) : ∃ t, exec c s = .next t := by
  cases c <;> exact ⟨_, rfl⟩

/-- No step stops. -/
theorem step_answers (s : State) : Runs s := by
  obtain ⟨c, rest, -, h⟩ | ⟨-, c, -, h⟩ | ⟨-, -, h⟩ := step_cases (rfl : step s = step s)
  · exact (exec_answers c _).imp fun t ht => h.trans ht
  · exact (exec_answers c _).imp fun t ht => h.trans ht
  · exact ⟨s.idle, h⟩

/-- With no command waiting and none due, the part idles. -/
theorem step_idle {s : State} (hp : s.pending = []) (hd : s.dueList = []) : step s = .next s.idle := by
  obtain ⟨c, rest, h, -⟩ | ⟨-, c, h, -⟩ | ⟨-, -, h⟩ := step_cases (rfl : step s = step s)
  · simp [hp] at h
  · simp [hd] at h
  · exact h

theorem State.idle_of_handed {s : State} {f : Fire} (h : s.mark.handed = some f) :
    s.idle = s.clearHanded.takeFire f := by
  rw [State.idle, if_pos (by simp [h]), State.takeHanded_of_some h]

theorem State.idle_of_none {s : State} (h : s.mark.handed = none) : s.idle = s.tick := by
  rw [State.idle, if_neg (by simp [h])]

/-- Settles O2: the kinds of a step, with idling told by whether a fire is handed over. -/
theorem idleStepIsDueOrTick : Obligations.IdleStepIsDueOrTick := by
  unfold Obligations.IdleStepIsDueOrTick
  refine ⟨step_answers, fun s hp => ?_⟩
  obtain ⟨c, rest, h, -⟩ | ⟨-, c, hc, h⟩ | ⟨-, hd, h⟩ := step_cases (rfl : step s = step s)
  · simp [hp] at h
  · exact .inr (.inr ⟨c, hc, h⟩)
  · cases hf : s.mark.handed with
    | none => exact .inl ⟨hd, rfl, by rw [h, State.idle_of_none hf]⟩
    | some f => exact .inr (.inl ⟨f, hd, rfl, by rw [h, State.idle_of_handed hf]; rfl⟩)

end Sys2Proof.Machine
end

section
/-! PROOFS. About the trigger sequencer (chapter 4): the occurrences of each condition, the entry of a stage, the fire,
the count of an occurrence, and what an element and a cue come to. -/

namespace Sys2Proof.Machine

/-! ## Channel sets, channel by channel -/

theorem chanBit_and (a b : ChanSet) (c : Chan) : chanBit (a &&& b) c = (chanBit a c && chanBit b c) := by
  simp [chanBit]

theorem chanBit_not (a : ChanSet) (c : Chan) : chanBit (~~~a) c = !chanBit a c := by
  simp [chanBit]

/-- A channel set is empty where no channel is in it. -/
theorem chanSet_eq_zero_iff (a : ChanSet) : a = 0 ↔ ∀ c, chanBit a c = false := by
  refine ⟨fun h c => h ▸ chanBit_zero c, fun h => BitVec.eq_of_getLsbD_eq fun i hi => ?_⟩
  simpa [chanBit] using h ⟨i, hi⟩

theorem chanSet_bne_zero_iff (a : ChanSet) : (a != 0) = true ↔ ∃ c, chanBit a c = true := by
  rw [bne_iff_ne, ne_eq, chanSet_eq_zero_iff]
  simp

/-- Two level sets agree on a mask where each channel of it has one level in both. -/
theorem agreeOn_iff (mask value levels : ChanSet) :
    ((levels ^^^ value) &&& mask == 0) = true ↔
      ∀ c, chanBit mask c = true → chanBit levels c = chanBit value c := by
  rw [beq_iff_eq, chanSet_eq_zero_iff]
  refine forall_congr' fun c => ?_
  rw [chanBit_and, chanBit_xor]
  cases chanBit mask c <;> simp

/-! ## Conditions (R59–R63) -/

/-- The truth of a PATTERN, channel by channel (R59). -/
theorem patternHolds_eq_all (mask value : ChanSet) (e : Element) :
    patternHolds mask value e =
      (List.finRange 16).all fun c => !chanBit mask c || chanBit e.levels c == chanBit value c := by
  rw [Bool.eq_iff_iff, patternHolds, agreeOn_iff, List.all_eq_true]
  refine forall_congr' fun c => ?_
  cases chanBit mask c <;> simp

/-- A stage's fire says that its pattern holds (log entry 53): always where the pattern's occurrence ended the stage. -/
theorem Cond.lasting_satisfied_iff (c : Cond) (levels : ChanSet) :
    c.lasting false levels = true ↔ ∃ mask value, c = .pattern mask value := by
  cases c <;> simp [Cond.lasting]

/-- At an expiry it does where the pattern holds of the level set last kept. -/
theorem Cond.lasting_expired_iff (c : Cond) (levels : ChanSet) :
    c.lasting true levels = true ↔ ∃ mask value, c = .pattern mask value ∧
      ∀ ch, chanBit mask ch = true → chanBit levels ch = chanBit value ch := by
  cases c with
  | pattern mask value =>
    refine (agreeOn_iff mask value levels).trans ⟨fun h => ⟨mask, value, rfl, h⟩, ?_⟩
    rintro ⟨_, _, ⟨⟩, h⟩
    exact h
  | edge | glitch | pulse | cue | unassigned => simp [Cond.lasting]

section occurs

variable (q : Sequencer) (e : Element)

theorem Sequencer.occurs_pattern_iff (mask value : ChanSet) :
    q.occurs (.pattern mask value) e = true ↔
      q.patternFlag = false ∧ ∀ c, chanBit mask c = true → chanBit e.levels c = chanBit value c := by
  rw [Sequencer.occurs, Bool.and_eq_true, patternHolds, agreeOn_iff, Bool.not_eq_true', and_comm]

theorem Sequencer.occurs_rising_iff (set : ChanSet) :
    q.occurs (.edge set .rising) e = true ↔
      ∃ c, chanBit set c = true ∧ chanBit q.levels c = false ∧ chanBit e.levels c = true := by
  simp only [Sequencer.occurs, edgesOf, chanSet_bne_zero_iff, chanBit_and, chanBit_not, Bool.and_eq_true,
    Bool.not_eq_true']

theorem Sequencer.occurs_falling_iff (set : ChanSet) :
    q.occurs (.edge set .falling) e = true ↔
      ∃ c, chanBit set c = true ∧ chanBit q.levels c = true ∧ chanBit e.levels c = false := by
  simp only [Sequencer.occurs, edgesOf, chanSet_bne_zero_iff, chanBit_and, chanBit_not, Bool.and_eq_true,
    Bool.not_eq_true']

theorem Sequencer.occurs_either_iff (set : ChanSet) :
    q.occurs (.edge set .either) e = true ↔
      ∃ c, chanBit set c = true ∧ chanBit q.levels c ≠ chanBit e.levels c := by
  simp only [Sequencer.occurs, edgesOf, chanSet_bne_zero_iff, chanBit_and, chanBit_xor, Bool.and_eq_true]
  exact exists_congr fun c => and_congr_right fun _ => bne_iff_ne

theorem Sequencer.occurs_glitch_iff (set : ChanSet) :
    q.occurs (.glitch set) e = true ↔ ∃ c, chanBit set c = true ∧ chanBit e.glitch c = true := by
  simp only [Sequencer.occurs, chanSet_bne_zero_iff, chanBit_and, Bool.and_eq_true]

theorem Sequencer.occurs_pulse_iff (ch : Chan) (high : Bool) (min max : Nat) :
    q.occurs (.pulse ch high min max) e = true ↔
      chanBit q.levels ch = high ∧ chanBit e.levels ch ≠ high ∧
        ∃ t, vget q.lastChange ch = some t ∧ (min : Int) ≤ tdiff e.boundary t ∧
          (0 < max → tdiff e.boundary t ≤ (max : Int)) := by
  rw [Sequencer.occurs, Sequencer.pulseEnds, Bool.and_eq_true, Bool.and_eq_true, beq_iff_eq, bne_iff_ne, and_assoc]
  cases vget q.lastChange ch with
  | none => simp
  | some t => cases max <;> simp

end occurs

/-- The stage counts what belongs to a later boundary than the one it was entered at (R58). -/
theorem Sequencer.counts_iff (q : Sequencer) (b : StationTime) :
    q.counts b = true ↔ q.entry = .atTick ∨ ∃ a, q.entry = .atBoundary a ∧ earlier a b = true := by
  unfold Sequencer.counts
  cases q.entry <;> simp

theorem cueMatches_iff (code : BitVec 5) (entry : Fin 24) :
    cueMatches code entry = true ↔ code.toNat = 31 ∨ code.toNat = entry.val := by
  simp [cueMatches]

/-- The pattern flag after an element the stage has evaluated (R59). -/
def Sequencer.flagAfter (q : Sequencer) (c : Cond) (e : Element) : Bool :=
  match c with
  | .pattern mask value => patternHolds mask value e
  | .edge _ _ | .glitch _ | .pulse _ _ _ _ | .cue _ | .unassigned _ => q.patternFlag

theorem Sequencer.noteTruth_eq (q : Sequencer) (c : Cond) (e : Element) :
    q.noteTruth c e = { q with patternFlag := q.flagAfter c e } := by
  cases c <;> rfl

theorem Sequencer.flagAfter_eq (q : Sequencer) (c : Cond) (e : Element) :
    q.flagAfter c e = match c with
      | .pattern mask value =>
        (List.finRange 16).all fun c => !chanBit mask c || chanBit e.levels c == chanBit value c
      | _ => q.patternFlag := by
  cases c with
  | pattern mask value => exact patternHolds_eq_all mask value e
  | edge | glitch | pulse | cue | unassigned => rfl

/-! ## Entering a stage (R58, R66) -/

theorem Sequencer.stageOf_of_stages {q : Sequencer} {v : Vector Stage 4} (h : q.stages = some v) (n : Fin 4) :
    q.stageOf n = some (vget v n) := by
  simp [Sequencer.stageOf, h]

/-- A stage entered starts anew, its timer running where its T is above 0. -/
theorem Sequencer.enter_of_stages {q : Sequencer} {v : Vector Stage 4} (h : q.stages = some v) (n : Fin 4)
    (how : StageEntry) (t : StationTime) :
    q.enter n how t = { q with
      state := .running, stage := n, count := 0, patternFlag := false, entry := how
      timer := if (vget v n).timeout = 0 then none else some (after t ((vget v n).timeout * 256)) } := by
  simp [Sequencer.enter, Sequencer.timerFrom, Sequencer.stageOf_of_stages h]

theorem Sequencer.nextStage_eq {q : Sequencer} {n : Fin 4} (h : n.val = q.stage.val + 1) : q.nextStage = n :=
  Fin.ext (by rw [h]; exact Nat.mod_eq_of_lt (h ▸ n.isLt))

/-! ## The fire (R67, R68) -/

/-- The fire that the sequencer hands over from its current stage (R67, R68). -/
def State.fireOf (s : State) (st : Stage) (expired : Bool) (entry : Option (Fin 24)) (causeTime b : StationTime) :
    Fire where
  seg := s.session.k.getD 0
  cause := .sequencer s.sequencer.stage expired st.cond.code entry
  causeTime := causeTime
  boundary := b
  lasting := st.cond.lasting expired s.sequencer.levels

theorem State.fire_eq (s : State) (st : Stage) (expired : Bool) (entry : Option (Fin 24)) (causeTime b : StationTime) :
    s.fire st expired entry causeTime b = { s with
      sequencer := { s.sequencer with state := .fired, timer := none }
      mark := { s.mark with handed := some (s.fireOf st expired entry causeTime b) } } := rfl

theorem State.fireOf_seg {s : State} {k : Fin 8} (h : s.session.k = some k) (st : Stage) (expired : Bool)
    (entry : Option (Fin 24)) (causeTime b : StationTime) : (s.fireOf st expired entry causeTime b).seg = k := by
  simp [State.fireOf, h]

/-! ## Counting an occurrence (R64) -/

section count

variable {s : State} {st : Stage} (entry : Option (Fin 24)) (causeTime b : StationTime)

/-- Short of N the stage goes on. -/
theorem State.count_below (h : s.sequencer.count + 1 < st.n) :
    s.count st entry causeTime b =
      { s with sequencer := { s.sequencer with count := s.sequencer.count + 1 } } := by
  simp [State.count, h]

/-- At N under NEXT the stage after it is entered at the boundary. -/
theorem State.count_next {v : Vector Stage 4} (hv : s.sequencer.stages = some v) (h : s.sequencer.count + 1 = st.n)
    (hf : st.satisfiedFires = false) {n : Fin 4} (hn : n.val = s.sequencer.stage.val + 1) :
    s.count st entry causeTime b = { s with sequencer := { s.sequencer with
      state := .running, stage := n, count := 0, patternFlag := false, entry := .atBoundary b
      timer := if (vget v n).timeout = 0 then none else some (after b ((vget v n).timeout * 256)) } } := by
  rw [State.count, if_neg (Nat.not_lt.2 (Nat.le_of_eq h.symm)), if_neg (by simp [hf]), Sequencer.nextStage_eq hn]
  exact congrArg (fun q => { s with sequencer := q }) (Sequencer.enter_of_stages hv n (.atBoundary b) b)

/-- At N under FIRE the sequencer is FIRED with its count at N. -/
theorem State.count_fires (h : s.sequencer.count + 1 = st.n) (hf : st.satisfiedFires = true) :
    s.count st entry causeTime b = { s with
      sequencer := { s.sequencer with count := st.n, state := .fired, timer := none }
      mark := { s.mark with handed := some (s.fireOf st false entry causeTime b) } } := by
  rw [State.count, if_neg (Nat.not_lt.2 (Nat.le_of_eq h.symm)), if_pos hf, State.fire_eq, h]
  rfl

end count

/-! ## An element (R57, R58, R70) -/

/-- The state with the pattern flag that an element leaves under a condition (R59). -/
def State.flagged (s : State) (c : Cond) (e : Element) : State :=
  { s with sequencer := { s.sequencer with patternFlag := s.sequencer.flagAfter c e } }

section element

variable {s : State} {st : Stage} {v : Vector Stage 4} {e : Element}

theorem State.evaluate_of_not_occurs (h : s.sequencer.occurs st.cond e = false) :
    s.evaluate st e = s.flagged st.cond e := by
  simp [State.evaluate, h, Sequencer.noteTruth_eq, State.flagged]

theorem State.evaluate_of_occurs (h : s.sequencer.occurs st.cond e = true) :
    s.evaluate st e = (s.flagged st.cond e).count st none e.boundary e.boundary := by
  simp [State.evaluate, h, Sequencer.noteTruth_eq, State.flagged]

/-- An element moves the copy alone where nothing is evaluated. -/
theorem State.seqElement_of_not_counting (h : s.sequencer.state = .stopped ∨ s.sequencer.state = .waiting ∨
      s.sequencer.state = .parked ∨ s.sequencer.state = .running ∧ s.sequencer.counts e.boundary = false) :
    s.seqElement e = { s with sequencer := s.sequencer.keep e } := by
  unfold State.seqElement
  obtain h | h | h | ⟨h, hc⟩ := h
  · simp [h]
  · simp [h]
  · simp [h]
  · cases hs : s.sequencer.stageOf s.sequencer.stage <;> simp [h, hc, hs]

/-- A FIRED sequencer reports and keeps the element. -/
theorem State.seqElement_of_fired (h : s.sequencer.state = .fired) (hv : s.sequencer.stages = some v) :
    s.seqElement e =
      { s.reportPattern (vget v s.sequencer.stage) e with sequencer := s.sequencer.keep e } := by
  simp [State.seqElement, h, Sequencer.stageOf_of_stages hv]

/-- A RUNNING sequencer evaluates an element that its stage counts, and keeps it. -/
theorem State.seqElement_of_counting (h : s.sequencer.state = .running) (hv : s.sequencer.stages = some v)
    (hc : s.sequencer.counts e.boundary = true) :
    s.seqElement e =
      { s.evaluate (vget v s.sequencer.stage) e with
        sequencer := (s.evaluate (vget v s.sequencer.stage) e).sequencer.keep e } := by
  simp [State.seqElement, h, hc, Sequencer.stageOf_of_stages hv]

/-- The last-change times after an element do not depend on what the stage makes of it (R57). -/
theorem State.seqElement_lastChange (s : State) (e : Element) :
    (s.seqElement e).sequencer.lastChange = (s.sequencer.keep e).lastChange :=
  (Prod.mk.inj (s.copy_seqElement e)).2

theorem State.reportPattern_of_pattern {mask value : ChanSet} (h : st.cond = .pattern mask value) :
    s.reportPattern st e =
      { s with mark := s.mark.patternTruth e.boundary (patternHolds mask value e) } := by
  simp [State.reportPattern, h]

theorem State.reportPattern_of_other (h : ∀ mask value, st.cond ≠ .pattern mask value) :
    s.reportPattern st e = s := by
  unfold State.reportPattern
  split
  · exact absurd ‹_› (h _ _)
  all_goals rfl

end element

/-! ## The report taken by the mark unit (R70, R88) -/

section report

variable {m : MarkUnit} (b : StationTime)

/-- A fire still handed over carries the report. -/
theorem MarkUnit.patternTruth_of_handed {f : Fire} (h : m.handed = some f) (truth : Bool) :
    m.patternTruth b truth = { m with handed := some { f with lasting := truth } } := by
  simp [MarkUnit.patternTruth, h]

/-- Without the window of a LEAD the report has no effect. -/
theorem MarkUnit.patternTruth_of_no_window (hh : m.handed = none)
    (h : m.state ≠ .opened ∨ m.cfg = none ∨ m.closing = none) (truth : Bool) : m.patternTruth b truth = m := by
  simp only [MarkUnit.patternTruth, hh]
  split
  · rename_i hcfg hstate hclosing
    simp [hcfg, hstate, hclosing] at h
  · rfl

/-- The window of a LEAD follows the report. -/
theorem MarkUnit.patternTruth_of_window {g : MarkCfg} {close : StationTime} (hh : m.handed = none)
    (hs : m.state = .opened) (hg : m.cfg = some g) (hc : m.closing = some close) (truth : Bool) :
    m.patternTruth b truth =
      if truth then { m with heldOpen := true }
      else if m.heldOpen then { m with heldOpen := false, closing := some (later (after b (g.hold * 16)) close) }
      else m := by
  simp only [MarkUnit.patternTruth, hh, hs, hg, hc]

end report

/-! ## An element as a whole next state -/

/-- The element of a sequencer FIRED by a PATTERN stage reaches the mark unit as a report (R70). -/
theorem State.seqElement_of_fired_pattern {s : State} {v : Vector Stage 4} {e : Element} {mask value : ChanSet}
    (h : s.sequencer.state = .fired) (hv : s.sequencer.stages = some v)
    (hst : (vget v s.sequencer.stage).cond = .pattern mask value) :
    s.seqElement e = { s with
      sequencer := s.sequencer.keep e
      mark := s.mark.patternTruth e.boundary (patternHolds mask value e) } := by
  rw [State.seqElement_of_fired h hv, State.reportPattern_of_pattern hst]

section counted

variable {s : State} {v : Vector Stage 4} {e : Element} (hr : s.sequencer.state = .running)
  (hv : s.sequencer.stages = some v) (hc : s.sequencer.counts e.boundary = true)
include hr hv hc

/-- A counted element without an occurrence moves the pattern flag beside the copy. -/
theorem State.seqElement_no_occurrence (ho : s.sequencer.occurs (vget v s.sequencer.stage).cond e = false) :
    s.seqElement e = { s with sequencer := { s.sequencer.keep e with
      patternFlag := s.sequencer.flagAfter (vget v s.sequencer.stage).cond e } } := by
  rw [State.seqElement_of_counting hr hv hc, State.evaluate_of_not_occurs ho]
  rfl

variable (ho : s.sequencer.occurs (vget v s.sequencer.stage).cond e = true)
include ho

theorem State.seqElement_below (hn : s.sequencer.count + 1 < (vget v s.sequencer.stage).n) :
    s.seqElement e = { s with sequencer := { s.sequencer.keep e with
      patternFlag := s.sequencer.flagAfter (vget v s.sequencer.stage).cond e
      count := s.sequencer.count + 1 } } := by
  rw [State.seqElement_of_counting hr hv hc, State.evaluate_of_occurs ho,
    State.count_below (s := s.flagged _ e) _ _ _ hn]
  rfl

theorem State.seqElement_next (hn : s.sequencer.count + 1 = (vget v s.sequencer.stage).n)
    (hf : (vget v s.sequencer.stage).satisfiedFires = false) {n : Fin 4} (hnext : n.val = s.sequencer.stage.val + 1) :
    s.seqElement e = { s with sequencer := { s.sequencer.keep e with
      state := .running, stage := n, count := 0, patternFlag := false, entry := .atBoundary e.boundary
      timer := if (vget v n).timeout = 0 then none else some (after e.boundary ((vget v n).timeout * 256)) } } := by
  rw [State.seqElement_of_counting hr hv hc, State.evaluate_of_occurs ho,
    State.count_next (s := s.flagged _ e) _ _ _ hv hn hf hnext]
  rfl

theorem State.seqElement_fires (hn : s.sequencer.count + 1 = (vget v s.sequencer.stage).n)
    (hf : (vget v s.sequencer.stage).satisfiedFires = true) :
    s.seqElement e = { s with
      sequencer := { s.sequencer.keep e with
        patternFlag := s.sequencer.flagAfter (vget v s.sequencer.stage).cond e
        state := .fired, count := (vget v s.sequencer.stage).n, timer := none }
      mark := { s.mark with
        handed := some (s.fireOf (vget v s.sequencer.stage) false none e.boundary e.boundary) } } := by
  rw [State.seqElement_of_counting hr hv hc, State.evaluate_of_occurs ho,
    State.count_fires (s := s.flagged _ e) _ _ _ hn hf]
  rfl

end counted

/-! ## A cue (R62, R63) -/

/-- A cue taken by a CUE stage that counts its boundary is one occurrence. -/
theorem State.seqCue_of_taken {s : State} {v : Vector Stage 4} {entry : Fin 24} {b : StationTime} {code : BitVec 5}
    (hv : s.sequencer.stages = some v) (hr : s.sequencer.state = .running) (hc : s.sequencer.counts b = true)
    (hst : (vget v s.sequencer.stage).cond = .cue code) (hm : cueMatches code entry = true) (wordEnd : StationTime) :
    s.seqCue entry wordEnd b = s.count (vget v s.sequencer.stage) (some entry) wordEnd b := by
  simp [State.seqCue, Sequencer.stageOf_of_stages hv, hr, hst, hm, hc]

/-- Any other cue leaves no trace. -/
theorem State.seqCue_of_not_taken {s : State} {v : Vector Stage 4} {entry : Fin 24} {b : StationTime}
    (hv : s.sequencer.stages = some v)
    (h : ¬ (s.sequencer.state = .running ∧ s.sequencer.counts b = true ∧
      ∃ code, (vget v s.sequencer.stage).cond = .cue code ∧ cueMatches code entry = true)) (wordEnd : StationTime) :
    s.seqCue entry wordEnd b = s := by
  simp only [State.seqCue, Sequencer.stageOf_of_stages hv]
  split
  · rename_i st hr hst
    cases hst
    split
    · rename_i code hcode
      refine if_neg fun hmc => h ?_
      obtain ⟨hm, hc⟩ := Bool.and_eq_true_iff.1 hmc
      exact ⟨hr, hc, code, hcode, hm⟩
    all_goals rfl
  · rfl

/-- Settles O36: the conditions one by one, then a cue by whether the stage takes it and what the count comes to. -/
theorem occurrencesOfConditions : Obligations.OccurrencesOfConditions := by
  unfold Obligations.OccurrencesOfConditions
  refine ⟨fun q e => ⟨q.occurs_pattern_iff e, q.occurs_rising_iff e, q.occurs_falling_iff e, q.occurs_either_iff e,
    q.occurs_glitch_iff e, q.occurs_pulse_iff e, fun _ => rfl, fun _ => rfl⟩, ?_⟩
  intro s v entry wordEnd b hv
  simp only [← cueMatches_iff]
  refine ⟨fun h => State.seqCue_of_not_taken hv h wordEnd, ?_, ?_, ?_⟩
  · rintro ⟨hr, hc, code, hst, hm⟩ hn
    rw [State.seqCue_of_taken hv hr hc hst hm, State.count_below _ _ _ hn]
  · rintro ⟨hr, hc, code, hst, hm⟩ hn hf n hnext
    rw [State.seqCue_of_taken hv hr hc hst hm, State.count_next _ _ _ hv hn hf hnext, ← hr]
  · rintro ⟨hr, hc, code, hst, hm⟩ hn hf
    refine ⟨_, by rw [State.seqCue_of_taken hv hr hc hst hm, State.count_fires _ _ _ hn hf],
      fun k hk => State.fireOf_seg hk .., ?_, rfl, rfl, ?_⟩
    · simp [State.fireOf, hst, Cond.code]
    · simp [State.fireOf, hst, Cond.lasting]

/-- Settles O35: an element by the state it finds the sequencer in; a counted one by whether the condition occurs and
what the count comes to. -/
theorem runningStageCounts : Obligations.RunningStageCounts := by
  unfold Obligations.RunningStageCounts
  refine ⟨Sequencer.counts_iff, fun s e => ?_⟩
  dsimp only
  rw [s.seqElement_lastChange e]
  refine ⟨s.sequencer.keep_lastChange e, State.seqElement_of_not_counting, fun v hs hv => ⟨fun hne => ?_, ?_⟩, ?_⟩
  · rw [State.seqElement_of_fired hs hv, State.reportPattern_of_other hne]
    rfl
  · intro mask value hst
    rw [State.seqElement_of_fired_pattern hs hv hst, ← patternHolds_eq_all]
    refine ⟨rfl, fun f hf => MarkUnit.patternTruth_of_handed _ hf _,
      fun hh hw => MarkUnit.patternTruth_of_no_window _ hh hw _, fun g close hh ho hg hc => ?_⟩
    rw [MarkUnit.patternTruth_of_window _ hh ho hg hc]
    refine ⟨fun ht => if_pos ht, fun ht hheld => ?_, fun ht hheld => ?_⟩
    · rw [ht, hheld]; rfl
    · rw [ht, hheld]; rfl
  · intro v hr hv hc _
    have hlevels : (s.seqElement e).sequencer.levels = e.levels := (Prod.mk.inj (s.copy_seqElement e)).1
    refine ⟨hlevels, by simp, by simp, fun ho => ?_, fun ho => ⟨fun hn => ?_, fun hn hf hlast => ?_, fun hn hf => ?_⟩⟩
    · rw [State.seqElement_no_occurrence hr hv hc ho, Sequencer.flagAfter_eq]
      rfl
    · rw [State.seqElement_below hr hv hc ho hn, Sequencer.flagAfter_eq]
      rfl
    · have hnext : (⟨s.sequencer.stage.val + 1, by omega⟩ : Fin 4).val = s.sequencer.stage.val + 1 := rfl
      rw [State.seqElement_next hr hv hc ho hn hf hnext]
      exact ⟨rfl, rfl, rfl, rfl, rfl, rfl, rfl⟩
    · rw [State.seqElement_fires hr hv hc ho hn hf, Sequencer.flagAfter_eq]
      exact ⟨rfl, _, rfl, fun k hk => State.fireOf_seg hk .., rfl, rfl, rfl, Cond.lasting_satisfied_iff _ _⟩

end Sys2Proof.Machine
end

section
/-! PROOFS. About the timers of the mark unit (R83, R85, R89, R93), of a feed (R129) and of a stage (R66), each as the
whole next state at its expiry; and about the fire that the mark unit takes when nothing else is due (R67, R74, R83,
R88). -/

namespace Sys2Proof.Machine

@[simp] theorem timerDue_some (now e : StationTime) : timerDue now (some e) = notAfter e now := rfl

/-! ## The sequencer restarted (R66, R70) -/

theorem Sequencer.restart_of_not_fired {q : Sequencer} (h : q.state ≠ .fired) (now : StationTime) :
    q.restart now = q := by
  unfold Sequencer.restart
  split
  · exact absurd ‹_› h
  all_goals rfl

theorem Sequencer.restart_of_fired {q : Sequencer} (h : q.state = .fired) (now : StationTime) :
    q.restart now = q.enter 0 .atTick now := by
  simp [Sequencer.restart, h]

/-! ## The mark unit's timers -/

theorem exec_markPulseEnd_due {s : State} (h : s.pulseOver = true) :
    exec .markPulseEnd s = .next { s with mark := s.mark.endPulse } :=
  congrArg Host.Outcome.next (if_pos h)

theorem exec_edgeWaitEnd_due {s : State} (h : s.edgeWaitOver = true) :
    exec .edgeWaitEnd s = .next (State.requestRestart { s with mark := s.mark.deadPulse }) :=
  congrArg Host.Outcome.next (if_pos h)

theorem exec_windowClose_due {s : State} (h : s.windowOver = true) :
    exec .windowClose s = .next (State.requestRestart { s with mark := s.mark.countMissed.holdAgain }) :=
  congrArg Host.Outcome.next (if_pos h)

theorem exec_trigOutEnd_due {s : State} (h : s.trigOutOver = true) :
    exec .trigOutEnd s = .next { s with mark := { s.mark with trigOutEnd := none } } :=
  congrArg Host.Outcome.next (if_pos h)

/-- At the end of a pulse the unit is in WATCH again where its own edge has been taken (R83). -/
theorem MarkUnit.endPulse_eq (m : MarkUnit) :
    m.endPulse = { m with pulseEnd := none, state := if m.waitEnd = none then .watch else .pulse } := by
  simp [MarkUnit.endPulse]

/-! ## The feed timer (R129) -/

theorem exec_feedTimeout_due {s : State} {q : QueueId} (h : s.feedTimerDue q = true) :
    exec (.feedTimeout q) s = .next { s with
      words := s.words.setQueue q { s.words.queue q with feed := (s.words.queue q).feed.drain s.order }
      order := s.order + 1 } :=
  congrArg Host.Outcome.next (if_pos h)

/-- The wait of a feed that was not DRAINING is counted from its entry (log entry 18). -/
theorem Feed.drain_of_collecting {f : Feed} (h : f.state = .collecting) (order : Nat) :
    f.drain order = { f with state := .draining, timer := none, since := order } := by
  simp [Feed.drain, h]

/-- What a restart request that the mark unit makes does to the sequencer, where stages are held or it is not FIRED. -/
theorem State.requestRestart_sequencer (s : State) :
    (s.sequencer.state ≠ .fired → s.requestRestart.sequencer = s.sequencer) ∧
      (s.sequencer.state = .fired → ∀ v : Vector Stage 4, s.sequencer.stages = some v →
        s.requestRestart.sequencer = { s.sequencer with
          state := .running, stage := 0, count := 0, patternFlag := false, entry := .atTick
          timer := if (vget v 0).timeout = 0 then none else some (after s.time ((vget v 0).timeout * 256)) }) :=
  ⟨fun h => Sequencer.restart_of_not_fired h _, fun h _ hv =>
    (Sequencer.restart_of_fired h _).trans (Sequencer.enter_of_stages hv 0 .atTick s.time)⟩

/-- Settles O27: each timer is due, and its command's next state is written out. -/
theorem markAndFeedTimers : Obligations.MarkAndFeedTimers := by
  unfold Obligations.MarkAndFeedTimers
  refine ⟨fun s e hs hp he => ?_, fun s e hp he => ?_, fun s e hs hw he => ?_, fun s e hs hh hc he => ?_,
    fun s q e hs ht he => ?_⟩
  · rw [exec_markPulseEnd_due (by simp [State.pulseOver, hs, hp, he]), MarkUnit.endPulse_eq]
  · rw [exec_trigOutEnd_due (by simp [State.trigOutOver, hp, he])]
  · exact ⟨_, exec_edgeWaitEnd_due (by simp [State.edgeWaitOver, hs, hw, he]), rfl,
      State.requestRestart_sequencer _⟩
  · have hm : s.mark.countMissed.holdAgain = { s.mark with
        state := .hold, fire := none, closing := none
        missed := min (s.mark.missed + 1) 65535, missedSeen := true } := by
      simp [MarkUnit.holdAgain, MarkUnit.countMissed, bump16, hh]
    refine ⟨_, exec_windowClose_due (by simp [State.windowOver, hs, hh, hc, he]), ?_, ?_⟩
    · rw [hm]; rfl
    · exact State.requestRestart_sequencer _
  · rw [exec_feedTimeout_due (by simp [State.feedTimerDue, hs, ht, he]), Feed.drain_of_collecting hs]

/-! ## The stage timer (R66) -/

theorem State.expireStage_noticeWaiting (s : State) :
    s.expireStage.sequencer.noticeWaiting = s.sequencer.noticeWaiting := by
  unfold State.expireStage
  (repeat' split) <;> rfl

/-- With no trigger notice on its way the expiry is the stage's action alone (R69). -/
theorem exec_stageTimerExpiry_due {s : State} (h : s.stageTimerDue = true) (hn : s.sequencer.noticeWaiting = false) :
    exec .stageTimerExpiry s = .next s.expireStage := by
  have hdeliver : s.expireStage.deliverNotice = s.expireStage :=
    if_neg (by rw [s.expireStage_noticeWaiting, hn]; decide)
  exact congrArg Host.Outcome.next ((if_pos h).trans hdeliver)

theorem State.expireStage_restarts {s : State} {v : Vector Stage 4} (hv : s.sequencer.stages = some v)
    (h : (vget v s.sequencer.stage).timeoutFires = false) :
    s.expireStage = { s with sequencer := { s.sequencer with
      state := .running, stage := 0, count := 0, patternFlag := false, entry := .atTick
      timer := if (vget v 0).timeout = 0 then none else some (after s.time ((vget v 0).timeout * 256)) } } := by
  simp [State.expireStage, Sequencer.stageOf_of_stages hv, h, Sequencer.enter_of_stages hv]

theorem State.expireStage_fires {s : State} {v : Vector Stage 4} {b : StationTime} (hv : s.sequencer.stages = some v)
    (h : (vget v s.sequencer.stage).timeoutFires = true) (hb : s.frontEnd.lastBoundary = some b) :
    s.expireStage = { s with
      sequencer := { s.sequencer with state := .fired, timer := none }
      mark := { s.mark with handed := some (s.fireOf (vget v s.sequencer.stage) true none s.time b) } } := by
  simp [State.expireStage, Sequencer.stageOf_of_stages hv, h, hb, State.fire_eq]

/-! ## A fire taken (R74, R83, R88) -/

/-- With no current segment a fire has no effect (R74). -/
theorem State.takeFire_of_no_segment {s : State} (h : s.store.current = none) (f : Fire) : s.takeFire f = s := by
  have hoffer : s.offer f.offer false = s := by simp [State.offer, h]
  have hstate : s.currentState = none := by simp [State.currentState, h]
  cases hg : s.mark.cfg <;> simp [State.takeFire, hg, hstate, hoffer]

/-- A LEAD that can drive acts on the fire itself while its segment is FILLING. -/
theorem State.takeFire_of_lead {s : State} {g : MarkCfg} {c : Current} (hg : s.mark.cfg = some g)
    (hc : s.store.current = some c) (hs : (s.header c.seg).state = .filling) (hr : g.role = .lead)
    (hl : s.bus.link.silent = false) (f : Fire) :
    s.takeFire f = { s with mark := s.mark.leadFire g f s.time } := by
  simp [State.takeFire, State.currentState, hg, hc, hs, hr, hl]

theorem MarkUnit.leadFire_of_watch {m : MarkUnit} {g : MarkCfg} (hg : g.sense = .any) (hm : m.state = .watch)
    (f : Fire) (now : StationTime) : m.leadFire g f now = m.startPulse f now := by
  simp [MarkUnit.leadFire, hg, hm]

theorem MarkUnit.leadFire_of_hold {m : MarkUnit} {g : MarkCfg} (hg : g.sense = .all) (hm : m.state = .hold)
    (f : Fire) (now : StationTime) : m.leadFire g f now = m.openWindow g f now := by
  simp [MarkUnit.leadFire, hg, hm]

/-- With nothing else due the mark unit takes the fire handed to it (log entry 26). -/
theorem step_takes_handed {s : State} {f : Fire} (hp : s.pending = []) (hd : s.dueList = [])
    (hf : s.mark.handed = some f) : step s = .next (s.clearHanded.takeFire f) := by
  rw [step_idle hp hd, State.idle_of_handed hf]

/-- Settles O34: the expiry by its action, and the fire by what the mark unit makes of it. -/
theorem stageTimerExpires : Obligations.StageTimerExpires := by
  unfold Obligations.StageTimerExpires
  refine ⟨fun s v e hs hv ht he hn => ?_, fun s f g hf hg hp hd => ?_⟩
  · rw [exec_stageTimerExpiry_due (by simp [State.stageTimerDue, hs, ht, he]) hn]
    refine ⟨fun hto => ?_, fun b hto hb => ?_⟩
    · rw [State.expireStage_restarts hv hto]
    · rw [State.expireStage_fires hv hto hb]
      exact ⟨_, rfl, fun k hk => State.fireOf_seg hk .., rfl, rfl, rfl, Cond.lasting_expired_iff _ _⟩
  · rw [step_takes_handed hp hd hf]
    refine ⟨fun hc => congrArg _ (State.takeFire_of_no_segment (s := s.clearHanded) hc f), fun c hc hfill hr hl => ?_⟩
    rw [State.takeFire_of_lead (s := s.clearHanded) hg hc hfill hr hl]
    refine ⟨fun hany hw => ⟨_, rfl, ?_⟩, fun hall hh => ⟨_, rfl, ?_⟩⟩
    · rw [MarkUnit.leadFire_of_watch (m := s.clearHanded.mark) hany hw]
      exact ⟨by simp [State.mtxLow, MarkUnit.intendsLow, MarkUnit.startPulse, State.clearHanded, hl], rfl⟩
    · rw [MarkUnit.leadFire_of_hold (m := s.clearHanded.mark) hall hh]
      exact ⟨by simp [State.mtxLow, MarkUnit.intendsLow, MarkUnit.openWindow], rfl⟩

end Sys2Proof.Machine
end

section
/-! PROOFS. About the records of the peer table: the skew of a peer and its bounds (R160, R162, R164–R166), which
operations write a record at all, and that every command keeps the skews' bounds. -/

namespace Sys2Proof.Machine

/-! ## One peer's skew (R166) -/

/-- A skew is in -8,192 to 8,192, and 0 while it is not valid (R166). -/
def Peer.SkewBounded (p : Peer) : Prop :=
  -8192 ≤ p.skew ∧ p.skew ≤ 8192 ∧ (p.skewValid = false → p.skew = 0)

theorem State.SkewInv.peer {s : State} (h : s.SkewInv) (p : Station) : (s.peer p).SkewBounded := h p

theorem Peer.SkewBounded.of_eq {p q : Peer} (h : p.SkewBounded) (hs : q.skew = p.skew)
    (hv : q.skewValid = p.skewValid) : q.SkewBounded := by
  unfold Peer.SkewBounded; rw [hs, hv]; exact h

theorem Peer.SkewBounded.of_zero {p : Peer} (h : p.skew = 0) : p.SkewBounded := by
  simp [Peer.SkewBounded, h]

theorem clampSkew_bounds (k : Int) : -8192 ≤ clampSkew k ∧ clampSkew k ≤ 8192 := by
  unfold clampSkew; omega

/-- Smoothing stays within the bounds of what it smooths (R166). -/
theorem smoothed_bounds {x k : Int} (hx : -8192 ≤ x ∧ x ≤ 8192) (hk : -8192 ≤ k ∧ k ≤ 8192) :
    -8192 ≤ (3 * x + k).tdiv 4 ∧ (3 * x + k).tdiv 4 ≤ 8192 := by
  have hsum : (3 * x + k).natAbs ≤ 8192 * 4 := by omega
  have habs : ((3 * x + k).tdiv 4).natAbs ≤ 8192 := by
    rw [Int.natAbs_tdiv]
    exact Nat.div_le_of_le_mul (by simpa [Nat.mul_comm] using hsum)
  omega

/-- An update is the clamped estimate, or the smoothing of a skew already within the bounds (R166). -/
theorem Peer.SkewBounded.updateSkew {p : Peer} (h : p.SkewBounded) (dR dL : Int) :
    (p.updateSkew dR dL).SkewBounded := by
  obtain ⟨hlo, hhi, -⟩ := h
  have hk := clampSkew_bounds (skewEstimate dR dL)
  have hskew : -8192 ≤ (p.updateSkew dR dL).skew ∧ (p.updateSkew dR dL).skew ≤ 8192 := by
    simp only [Peer.updateSkew]
    split
    · exact smoothed_bounds ⟨hlo, hhi⟩ hk
    · exact hk
  exact ⟨hskew.1, hskew.2, fun hv => by cases hv⟩

theorem Peer.SkewBounded.takeAnchor {p : Peer} (h : p.SkewBounded) (a : Anchor) : (p.takeAnchor a).SkewBounded := by
  unfold Peer.takeAnchor
  split
  · dsimp only
    split
    · exact h.of_eq rfl rfl
    · exact (h.updateSkew _ _).of_eq rfl rfl
  · exact h.of_eq rfl rfl

theorem Peer.SkewBounded.takeNote {p : Peer} (h : p.SkewBounded) (n : Byte) (prev : Option StationTime)
    (stamp : StationTime) : (p.takeNote n prev stamp).SkewBounded := by
  have hchain : Peer.SkewBounded { p with chain := some { seq := n, stamp := stamp } } := h.of_eq rfl rfl
  unfold Peer.takeNote
  split
  · split
    · exact hchain.takeAnchor _
    · exact hchain
  · exact hchain

/-! ## The records of the peer table -/

/-- The invariant speaks of the records alone. -/
theorem State.SkewInv.of_records {s t : State} (h : s.SkewInv) (ht : t.peers.peers = s.peers.peers) : t.SkewInv :=
  fun p => by rw [State.peer_congr ht]; exact h p

theorem State.SkewInv.setPeer {s : State} (h : s.SkewInv) (i : Station) {p : Peer} (hp : p.SkewBounded) :
    (s.setPeer i p).SkewInv := by
  intro j
  by_cases hj : j = i
  · subst hj; rw [State.peer_setPeer_same]; exact hp
  · rw [State.peer_setPeer_other _ _ hj]; exact h j

/-- Hearing a frame restarts a presence timer and leaves every skew (R160). -/
theorem State.SkewInv.takeGood {s : State} (h : s.SkewInv) (f : RxFrame) : (s.takeGood f).SkewInv := by
  have hhear : (s.hear f).SkewInv := by
    unfold State.hear
    split
    · exact h
    · exact h.setPeer _ ((h.peer f.src).of_eq rfl rfl)
  exact hhear.of_records rfl

@[simp] theorem State.returnFrame_records (e : QEntry) (s : State) :
    (s.returnFrame e).peers.peers = s.peers.peers := by
  unfold State.returnFrame; dsimp only; (repeat' split) <;> simp

@[simp] theorem State.placeUrgent_records (o : Origin) (f : TxFrame) (s : State) :
    (s.placeUrgent o f).peers.peers = s.peers.peers := by
  obtain h | ⟨-, h⟩ | ⟨e, -, -, -, h⟩ := s.placeUrgent_cases o f <;> simp [h]

@[simp] theorem State.placeTimeNote_records (s : State) : s.placeTimeNote.peers.peers = s.peers.peers := by
  unfold State.placeTimeNote; dsimp only; (repeat' split) <;> simp

@[simp] theorem State.takeEdge_records (e : MarkEdge) (late : Bool) (s : State) :
    (s.takeEdge e late).peers.peers = s.peers.peers := by
  unfold State.takeEdge; (repeat' split) <;> simp [State.queueMarkNote]

@[simp] theorem State.rollDue_records (answer : Bool) (s : State) :
    (s.rollDue answer).peers.peers = s.peers.peers := by
  unfold State.rollDue; (repeat' split) <;> rfl

@[simp] theorem State.reportSent_records (e : QEntry) (stamp : StationTime) (s : State) :
    (s.reportSent e stamp).peers.peers = s.peers.peers := by
  unfold State.reportSent; split <;> simp

@[simp] theorem State.placeWaitingNote_records (s : State) : s.placeWaitingNote.peers.peers = s.peers.peers := by
  unfold State.placeWaitingNote; split <;> simp

@[simp] theorem State.noteAfter_records (e : QEntry) (s : State) : (s.noteAfter e).peers.peers = s.peers.peers := by
  unfold State.noteAfter; split <;> simp

@[simp] theorem State.enterSilent_records (l : LinkState) (s : State) :
    (s.enterSilent l).peers.peers = s.peers.peers := by
  unfold State.enterSilent
  simp [foldl_keeps State.peers]

@[simp] theorem State.rejoinBus_records (s : State) : s.rejoinBus.peers.peers = s.peers.peers := by
  simp [State.rejoinBus]

@[simp] theorem State.setScore_records (n : Nat) (s : State) : (s.setScore n).peers.peers = s.peers.peers := by
  obtain ⟨-, h⟩ | ⟨-, h⟩ := s.setScore_cases n <;> simp [h]

@[simp] theorem State.takeRxError_records (s : State) : s.takeRxError.peers.peers = s.peers.peers := by
  unfold State.takeRxError; dsimp only; (repeat' split) <;> simp

@[simp] theorem State.takeBreak_records (s : State) : s.takeBreak.peers.peers = s.peers.peers := by
  unfold State.takeBreak; dsimp only; split <;> simp

@[simp] theorem State.duplicateFound_records (s : State) : s.duplicateFound.peers.peers = s.peers.peers := by
  unfold State.duplicateFound; split <;> simp

@[simp] theorem State.tick_records (s : State) : s.tick.peers.peers = s.peers.peers := by simp [State.tick]

/-! ## The operations that write a record -/

/-- The clearing of the DRIFT marks leaves every skew (R182). -/
theorem State.SkewInv.clearSticky {s : State} (h : s.SkewInv) : s.clearSticky.SkewInv := by
  intro p
  have hp : s.clearSticky.peer p = { s.peer p with drift := false } := by simp [State.peer, State.clearSticky]
  rw [hp]; exact h p

theorem State.SkewInv.compose {s : State} (h : s.SkewInv) (r : StatusReply) : (s.compose r).2.SkewInv := by
  unfold State.compose
  split
  · exact h.clearSticky.of_records rfl
  · exact h.of_records rfl
  · exact h

theorem State.SkewInv.placeStatus {s : State} (h : s.SkewInv) (r : StatusReply) : (s.placeStatus r).SkewInv := by
  have hc := h.compose r
  unfold State.placeStatus
  cases r.composed <;> dsimp only <;> split
  · exact hc.of_records rfl
  · exact hc.of_records (by simp)
  · exact h.of_records rfl
  · exact h.of_records (by simp)

theorem State.SkewInv.place {s : State} (h : s.SkewInv) (p : Pick) : (s.place p).SkewInv := by
  cases p with
  | status r => exact h.placeStatus r
  | viewAsk w =>
    simp only [State.place]
    split <;> exact h.of_records (by simp)
  | _ => exact h.of_records (by simp [State.place])

theorem State.SkewInv.takeTimeNote {s : State} (h : s.SkewInv) (f : RxFrame) : (State.takeTimeNote f s).SkewInv := by
  unfold State.takeTimeNote
  split
  · exact h
  · exact h.setPeer _ ((h.peer f.src).takeNote _ _ _)

/-- A ROLL_CALL sets a peer's details, and one that is no answer clears its time relation and with it the skew
(R162). -/
theorem State.SkewInv.takeRollCall {s : State} (h : s.SkewInv) (was : Bool) (f : RxFrame) :
    (State.takeRollCall was f s).SkewInv := by
  unfold State.takeRollCall
  split
  · exact h
  · rename_i answer d _
    have hp : Peer.SkewBounded { s.peer f.src with details := some d } := (h.peer f.src).of_eq rfl rfl
    repeat' split
    · exact h.of_records (by simp)
    · exact (h.setPeer f.src hp).of_records (by simp)
    · exact h.setPeer _ hp
    · exact h.setPeer _ (.of_zero rfl)

theorem State.SkewInv.takeMarkNote {s : State} (h : s.SkewInv) (f : RxFrame) : (State.takeMarkNote f s).SkewInv := by
  unfold State.takeMarkNote
  split
  · exact h
  · have hs := h.setPeer f.src (p := { s.peer f.src with
      lastFire := some { seg := byteAt f.payload 0, stamp := BitVec.ofNat 48 (field f.payload 1 6) } })
      ((h.peer f.src).of_eq rfl rfl)
    dsimp only
    split
    · exact hs.of_records (by simp)
    · exact hs

/-- A peer that goes ABSENT keeps no skew (R160). -/
theorem State.SkewInv.goAbsent {s : State} (h : s.SkewInv) (p : Station) :
    ((s.setPeer p (s.peer p).goAbsent).askerAbsent p).SkewInv :=
  (h.setPeer p (p := (s.peer p).goAbsent) (.of_zero rfl)).of_records (by simp)

theorem State.SkewInv.fullReset (s : State) (pins : Straps) : (s.fullReset pins).SkewInv := by
  intro p
  rw [show (s.fullReset pins).peer p = Peer.empty from PeerTable.reset_peer p]
  exact Peer.SkewBounded.of_zero rfl

theorem State.SkewInv.takeRestart {s : State} (h : s.SkewInv) (f : RxFrame) : (State.takeRestart f s).SkewInv := by
  unfold State.takeRestart
  split
  · exact .fullReset s s.pins
  · exact h

/-! ## Every command -/

/-- What an event that acts only where it is due leaves alone where it acts, its command leaves alone. -/
theorem kept_of_next_ite {α : Type} (p : State → α) {c : Prop} [Decidable c] {s u t : State} (hu : p u = p s)
    (h : (.next (if c then u else s) : Host.Outcome State Fault Refusal) = .next t) : p t = p s := by
  cases h
  split
  · exact hu
  · rfl

/-- A frame whose block keeps the skews' invariant keeps it. -/
theorem State.SkewInv.receive {s : State} (h : s.SkewInv) (f : RxFrame) {act : State → State}
    (ha : ∀ s : State, s.SkewInv → (act s).SkewInv) : (s.receive f act).SkewInv :=
  State.receive_induct (fun f _ hs => hs.takeGood f) ha f s h

@[simp] theorem State.noteAfter_mark (e : QEntry) (s : State) : (s.noteAfter e).mark = s.mark := by
  unfold State.noteAfter; split <;> simp

/-- The result of an own frame reaches the bus and its originator: the records of the peers and the mark unit stay
(R144, R150). -/
theorem execFrameSent_keeps {stamp : StationTime} {s t : State} (h : execFrameSent stamp s = .next t) :
    t.peers.peers = s.peers.peers ∧ t.mark = s.mark := by
  cases h; split <;> simp

theorem execFrameUnheard_keeps {s t : State} (h : execFrameUnheard s = .next t) :
    t.peers.peers = s.peers.peers ∧ t.mark = s.mark := by
  cases h; split <;> simp

theorem execFrameSpoiled_keeps {s t : State} (h : execFrameSpoiled s = .next t) :
    t.peers.peers = s.peers.peers ∧ t.mark = s.mark := by
  cases h
  split
  · dsimp only
    rw [State.noteAfter_records, State.noteAfter_mark]
    split <;> simp
  · exact ⟨rfl, rfl⟩

theorem execAskServiceStart_keeps {s t : State} (h : execAskServiceStart s = .next t) :
    t.peers.peers = s.peers.peers ∧ t.mark = s.mark := by
  cases h; (repeat' split) <;> simp

/-- Every command keeps the skews within their bounds. -/
theorem exec_skewInv {c : Instr} {s t : State} (h : s.SkewInv) (ht : exec c s = .next t) : t.SkewInv := by
  cases c
  case fullReset pins => cases ht; exact .fullReset s pins
  case presenceTimeout p =>
    cases ht
    split
    · exact h.goAbsent p
    · exact h
  case placeGranted =>
    cases ht
    repeat' split
    · exact h.place _
    · exact h
    · exact h
  case timeNote f => cases ht; exact h.receive f fun _ hs => hs.takeTimeNote f
  case rollCall f => cases ht; exact h.receive f fun _ hs => hs.takeRollCall _ f
  case markNote f => cases ht; exact h.receive f fun _ hs => hs.takeMarkNote f
  case restart f => cases ht; exact h.receive f fun _ hs => hs.takeRestart f
  case wordsNote f => cases ht; exact h.receive f fun _ hs => hs
  case planPart f | arm f | halt f | statusNote f | reduceAsk f | wordsAsk f | statusAsk f | stop f | viewPart f |
      viewGo f | runs f | boxes f =>
    cases ht; exact h.receive f fun _ hs => hs.of_records (by simp)
  case frameSent stamp => exact h.of_records (execFrameSent_keeps ht).1
  case frameUnheard => exact h.of_records (execFrameUnheard_keeps ht).1
  case frameSpoiled => exact h.of_records (execFrameSpoiled_keeps ht).1
  case askServiceStart => exact h.of_records (execAskServiceStart_keeps ht).1
  case comparatorStateChange ch uv => cases ht; exact h
  case busBreak =>
    cases ht
    split
    · exact h
    · exact h.of_records (by simp)
  all_goals exact h.of_records (kept_of_next_ite (fun s => s.peers.peers) (by simp) ht)

end Sys2Proof.Machine
end

section
/-! PROOFS. About the mark unit's edge list and its count of missed windows (R79, R85, R89): which operations leave both
alone, and that every command keeps their bounds. -/

namespace Sys2Proof.Machine

/-! ## The unit itself -/

/-- At most four edges are listed (R79), and the missed count is at most 65,535 (R85, R89): what `State.MarkInv` says of
the state's mark unit. -/
def MarkUnit.Bounded (m : MarkUnit) : Prop := m.edges.length ≤ 4 ∧ m.missed ≤ 65535

theorem MarkUnit.Bounded.of_eq {m n : MarkUnit} (h : m.Bounded) (he : n.edges = m.edges) (hm : n.missed = m.missed) :
    n.Bounded := by
  unfold MarkUnit.Bounded; rw [he, hm]; exact h

@[simp] theorem MarkUnit.segmentReady_tally (m : MarkUnit) :
    m.segmentReady.edges = m.edges ∧ m.segmentReady.missed = m.missed := by
  unfold MarkUnit.segmentReady; (repeat' split) <;> simp

@[simp] theorem MarkUnit.leadFire_tally (m : MarkUnit) (c : MarkCfg) (f : Fire) (now : StationTime) :
    (m.leadFire c f now).edges = m.edges ∧ (m.leadFire c f now).missed = m.missed := by
  unfold MarkUnit.leadFire; split <;> exact ⟨rfl, rfl⟩

@[simp] theorem MarkUnit.patternTruth_tally (m : MarkUnit) (b : StationTime) (truth : Bool) :
    (m.patternTruth b truth).edges = m.edges ∧ (m.patternTruth b truth).missed = m.missed := by
  unfold MarkUnit.patternTruth; (repeat' split) <;> simp

/-- One more edge leaves at most four in the list (R79). -/
theorem length_addEdge_le {l : List MarkEdge} (h : l.length ≤ 4) (e : MarkEdge) : (addEdge l e).length ≤ 4 := by
  unfold addEdge
  split
  · simp only [List.length_append, List.length_singleton]; omega
  · simp only [List.length_append, List.length_drop, List.length_singleton]; omega

theorem MarkUnit.Bounded.registerEdge {m : MarkUnit} (h : m.Bounded) (e : MarkEdge) (rising : Bool) :
    MarkUnit.Bounded { m with edges := addEdge m.edges e, mrx := rising, edgeThisTick := true } :=
  ⟨length_addEdge_le h.1 e, h.2⟩

theorem MarkUnit.Bounded.countMissed {m : MarkUnit} (h : m.Bounded) : m.countMissed.Bounded :=
  ⟨h.1, Nat.min_le_right _ _⟩

/-- An accepted ARM sets the missed count to 0 and keeps the edge list (R77). -/
theorem MarkUnit.Bounded.arm {m : MarkUnit} (h : m.Bounded) (g : General) : (m.arm g).Bounded :=
  ⟨h.1, Nat.zero_le _⟩

/-! ## The operations that leave both alone -/

@[simp] theorem State.triggerRecord_tally (l : Layout) (k : Fin 8) (b : StationTime) (s : State) :
    (s.triggerRecord l k b).mark.edges = s.mark.edges ∧ (s.triggerRecord l k b).mark.missed = s.mark.missed := by
  unfold State.triggerRecord; split <;> simp

@[simp] theorem State.checkReady_tally (s : State) :
    s.checkReady.mark.edges = s.mark.edges ∧ s.checkReady.mark.missed = s.mark.missed := by
  unfold State.checkReady; (repeat' split) <;> simp

@[simp] theorem State.trigger_tally (l : Layout) (c : Current) (o : Offer) (late : Bool) (s : State) :
    (s.trigger l c o late).mark.edges = s.mark.edges ∧ (s.trigger l c o late).mark.missed = s.mark.missed := by
  unfold State.trigger; dsimp only; (repeat' split) <;> simp

@[simp] theorem State.takeOffer_tally (o : Offer) (late : Bool) (s : State) :
    (s.takeOffer o late).mark.edges = s.mark.edges ∧ (s.takeOffer o late).mark.missed = s.mark.missed := by
  obtain h | ⟨l, c, -, -, ⟨-, h⟩ | ⟨-, x, h, -⟩⟩ := s.takeOffer_cases o late <;> simp [h]

@[simp] theorem State.offer_tally (o : Offer) (late : Bool) (s : State) :
    (s.offer o late).mark.edges = s.mark.edges ∧ (s.offer o late).mark.missed = s.mark.missed := by
  obtain h | ⟨c, -, -, -, h⟩ := s.offer_cases o late <;> simp [h]

@[simp] theorem State.takeOffers_tally (s : State) :
    s.takeOffers.mark.edges = s.mark.edges ∧ s.takeOffers.mark.missed = s.mark.missed :=
  State.takeOffers_induct (P := fun t => t.mark.edges = s.mark.edges ∧ t.mark.missed = s.mark.missed) id
    (fun t o late h => by simpa using h) ⟨rfl, rfl⟩

@[simp] theorem State.takeStart_tally (l : Layout) (c : Current) (e : Element) (s : State) :
    (s.takeStart l c e).mark.edges = s.mark.edges ∧ (s.takeStart l c e).mark.missed = s.mark.missed := by
  unfold State.takeStart; dsimp only; split <;> simp

@[simp] theorem State.endSession_tally (s : State) :
    s.endSession.mark.edges = s.mark.edges ∧ s.endSession.mark.missed = s.mark.missed := ⟨rfl, rfl⟩

@[simp] theorem State.afterClose_tally (l : Layout) (k : Fin 8) (e : Element) (s : State) :
    (s.afterClose l k e).mark.edges = s.mark.edges ∧ (s.afterClose l k e).mark.missed = s.mark.missed := by
  unfold State.afterClose; split <;> simp

@[simp] theorem State.closeSegment_tally (l : Layout) (c : Current) (e : Element) (s : State) :
    (s.closeSegment l c e).mark.edges = s.mark.edges ∧ (s.closeSegment l c e).mark.missed = s.mark.missed := by
  simp [State.closeSegment]

@[simp] theorem State.takeFirst_tally (l : Layout) (c : Current) (e : Element) (s : State) :
    (s.takeFirst l c e).mark.edges = s.mark.edges ∧ (s.takeFirst l c e).mark.missed = s.mark.missed := by
  unfold State.takeFirst; dsimp only; split <;> simp

@[simp] theorem State.recordElement_tally (l : Layout) (c : Current) (f : Reference) (e : Element) (s : State) :
    (s.recordElement l c f e).mark.edges = s.mark.edges ∧ (s.recordElement l c f e).mark.missed = s.mark.missed := by
  unfold State.recordElement; dsimp only; split <;> simp

@[simp] theorem State.takeElement_tally (l : Layout) (c : Current) (f : Reference) (e : Element) (s : State) :
    (s.takeElement l c f e).mark.edges = s.mark.edges ∧ (s.takeElement l c f e).mark.missed = s.mark.missed := by
  rw [State.takeElement_eq]; split <;> simp

@[simp] theorem State.storeElement_tally (e : Element) (s : State) :
    (s.storeElement e).mark.edges = s.mark.edges ∧ (s.storeElement e).mark.missed = s.mark.missed := by
  simp only [State.storeElement, State.takeOffers_tally]
  unfold State.takeBoundary; (repeat' split) <;> simp

@[simp] theorem State.abort_tally (render : Bool) (s : State) :
    (s.abort render).mark.edges = s.mark.edges ∧ (s.abort render).mark.missed = s.mark.missed := by
  unfold State.abort
  obtain h | ⟨c, -, -, h⟩ := s.takeOffers.cut_cases render <;> simp [h]

@[simp] theorem State.takeHalt_tally (f : RxFrame) (s : State) :
    (State.takeHalt f s).mark.edges = s.mark.edges ∧ (State.takeHalt f s).mark.missed = s.mark.missed := by
  unfold State.takeHalt; split <;> simp

@[simp] theorem State.takeFire_tally (f : Fire) (s : State) :
    (s.takeFire f).mark.edges = s.mark.edges ∧ (s.takeFire f).mark.missed = s.mark.missed := by
  obtain h | h | ⟨c, h⟩ := s.takeFire_cases f <;> simp [h]

@[simp] theorem State.takeHanded_tally (s : State) :
    s.takeHanded.mark.edges = s.mark.edges ∧ s.takeHanded.mark.missed = s.mark.missed := by
  unfold State.takeHanded; split <;> simp

@[simp] theorem State.takeEarlierFire_tally (e : Element) (s : State) :
    (s.takeEarlierFire e).mark.edges = s.mark.edges ∧ (s.takeEarlierFire e).mark.missed = s.mark.missed := by
  obtain h | h := s.takeEarlierFire_cases e <;> simp [h]

@[simp] theorem State.takeEdge_tally (e : MarkEdge) (late : Bool) (s : State) :
    (s.takeEdge e late).mark.edges = s.mark.edges ∧ (s.takeEdge e late).mark.missed = s.mark.missed := by
  unfold State.takeEdge; (repeat' split) <;> simp [MarkUnit.ownEdge, MarkUnit.holdAgain]

@[simp] theorem State.count_tally (st : Stage) (e : Option (Fin 24)) (c b : StationTime) (s : State) :
    (s.count st e c b).mark.edges = s.mark.edges ∧ (s.count st e c b).mark.missed = s.mark.missed := by
  unfold State.count; dsimp only; (repeat' split) <;> simp [State.fire]

@[simp] theorem State.seqElement_tally (e : Element) (s : State) :
    (s.seqElement e).mark.edges = s.mark.edges ∧ (s.seqElement e).mark.missed = s.mark.missed := by
  unfold State.seqElement State.evaluate State.reportPattern; dsimp only; (repeat' split) <;> simp

@[simp] theorem State.seqCue_tally (i : Fin 24) (t b : StationTime) (s : State) :
    (s.seqCue i t b).mark.edges = s.mark.edges ∧ (s.seqCue i t b).mark.missed = s.mark.missed := by
  unfold State.seqCue; dsimp only; (repeat' split) <;> simp

@[simp] theorem State.expireStage_tally (s : State) :
    s.expireStage.mark.edges = s.mark.edges ∧ s.expireStage.mark.missed = s.mark.missed := by
  unfold State.expireStage; (repeat' split) <;> simp [State.fire]

@[simp] theorem Delivery.takeNext_tally (d : Delivery) (u : Fin 4) (ws : List Word) (b : StationTime) (s : State) :
    (d.takeNext s u ws b).2.mark.edges = s.mark.edges ∧ (d.takeNext s u ws b).2.mark.missed = s.mark.missed := by
  unfold Delivery.takeNext State.takeWord; (repeat' split) <;> simp

@[simp] theorem Delivery.consume_tally (e : Element) (x : Delivery × State) (c : Consumer) :
    (Delivery.consume e x c).2.mark.edges = x.2.mark.edges ∧
      (Delivery.consume e x c).2.mark.missed = x.2.mark.missed := by
  unfold Delivery.consume; dsimp only; (repeat' split) <;> simp

@[simp] theorem State.boundary_tally (sched : List Consumer) (s : State) :
    (s.boundary sched).mark.edges = s.mark.edges ∧ (s.boundary sched).mark.missed = s.mark.missed := by
  simp only [State.boundary, State.deliver, State.deliverNotice_frame]
  exact foldl_induct
    (P := fun x : Delivery × State => x.2.mark.edges = s.mark.edges ∧ x.2.mark.missed = s.mark.missed) _ (fun x c h => by simpa using h) _ _ ⟨rfl, rfl⟩

@[simp] theorem State.takeBreak_tally (s : State) :
    s.takeBreak.mark.edges = s.mark.edges ∧ s.takeBreak.mark.missed = s.mark.missed := by
  unfold State.takeBreak; dsimp only; split <;> simp

@[simp] theorem State.placeStatus_tally (r : StatusReply) (s : State) :
    (s.placeStatus r).mark.edges = s.mark.edges ∧ (s.placeStatus r).mark.missed = s.mark.missed := by
  have hc : (s.compose r).2.mark.edges = s.mark.edges ∧ (s.compose r).2.mark.missed = s.mark.missed := by
    unfold State.compose; split <;> exact ⟨rfl, rfl⟩
  unfold State.placeStatus
  cases r.composed <;> dsimp only <;> split <;> simp [hc]

@[simp] theorem State.place_tally (p : Pick) (s : State) :
    (s.place p).mark.edges = s.mark.edges ∧ (s.place p).mark.missed = s.mark.missed := by
  unfold State.place; (repeat' split) <;> simp

@[simp] theorem State.tick_tally (s : State) :
    s.tick.mark.edges = s.mark.edges ∧ s.tick.mark.missed = s.mark.missed := by
  simp [State.tick]

/-! ## Every command -/

/-- Of a command that acts only where it is due, the bounds hold after it where they hold after its action. -/
theorem MarkUnit.Bounded.of_next_ite {c : Prop} [Decidable c] {s u t : State} (h : s.mark.Bounded)
    (ht : (.next (if c then u else s) : Host.Outcome State Fault Refusal) = .next t) (hu : u.mark.Bounded) :
    t.mark.Bounded := by
  cases ht
  split
  · exact hu
  · exact h

/-- The edge of a MARK_EDGE is listed after a fire handed over before it is taken, and then acted on (R79). -/
theorem execMarkEdge_bounded {rising late : Bool} {s t : State} (h : s.mark.Bounded)
    (ht : execMarkEdge rising late s = .next t) : t.mark.Bounded := by
  refine h.of_next_ite ht ?_
  obtain ⟨he, hm⟩ := s.takeHanded_tally
  have hedge := (h.of_eq he hm).registerEdge { stamp := s.takeHanded.time, rising := rising } rising
  exact hedge.of_eq (by simp) (by simp)

theorem State.acceptArm_bounded {s : State} (h : s.mark.Bounded) : s.acceptArm.mark.Bounded := by
  have hmark : s.acceptArm.mark = s.mark.arm s.session.draft.general := by simp [State.acceptArm]
  exact hmark ▸ h.arm _

theorem State.takeArm_bounded (f : RxFrame) {s : State} (h : s.mark.Bounded) :
    (State.takeArm f s).mark.Bounded := by
  unfold State.takeArm State.arm
  repeat' split
  · exact h.of_eq (by simp) (by simp)
  · exact h.of_eq (by simp) (by simp)
  · exact State.acceptArm_bounded h
  · exact h

theorem State.takeRestart_bounded (f : RxFrame) {s : State} (h : s.mark.Bounded) :
    (State.takeRestart f s).mark.Bounded := by
  unfold State.takeRestart
  split
  · exact reset_markInv
  · exact h

/-- A frame whose block keeps the mark unit's bounds keeps them. -/
theorem State.receive_bounded {act : State → State} (ha : ∀ s : State, s.mark.Bounded → (act s).mark.Bounded)
    (f : RxFrame) {s : State} (h : s.mark.Bounded) : (s.receive f act).mark.Bounded :=
  State.receive_induct (P := fun s => s.mark.Bounded) (fun f s hs => by simpa using hs) ha f s h

/-- Every command keeps the bounds of the mark unit. -/
theorem exec_markBounded {c : Instr} {s t : State} (h : s.mark.Bounded) (ht : exec c s = .next t) : t.mark.Bounded := by
  cases c
  case fullReset pins => cases ht; exact reset_markInv
  case markEdge rising late => exact execMarkEdge_bounded h ht
  case markPulseEnd => exact h.of_next_ite ht (h.of_eq rfl rfl)
  case edgeWaitEnd | windowClose => exact h.of_next_ite ht (h.countMissed.of_eq rfl rfl)
  case placeGranted =>
    cases ht
    repeat' split
    · exact h.of_eq (by simp) (by simp)
    · exact h
    · exact h
  case arm f => cases ht; exact State.receive_bounded (fun _ => State.takeArm_bounded f) f h
  case restart f => cases ht; exact State.receive_bounded (fun _ => State.takeRestart_bounded f) f h
  case wordsNote f => cases ht; exact State.receive_bounded (fun _ hs => hs) f h
  case planPart f | halt f | timeNote f | rollCall f | markNote f | statusNote f | reduceAsk f | wordsAsk f |
      statusAsk f | stop f | viewPart f | viewGo f | runs f | boxes f =>
    cases ht; exact State.receive_bounded (fun _ hs => hs.of_eq (by simp) (by simp)) f h
  case frameSent stamp => exact (execFrameSent_keeps ht).2 ▸ h
  case frameUnheard => exact (execFrameUnheard_keeps ht).2 ▸ h
  case frameSpoiled => exact (execFrameSpoiled_keeps ht).2 ▸ h
  case askServiceStart => exact (execAskServiceStart_keeps ht).2 ▸ h
  case comparatorStateChange ch uv => cases ht; exact h
  case busBreak =>
    cases ht
    split
    · exact h
    · exact h.of_eq (by simp) (by simp)
  all_goals exact h.of_next_ite ht (h.of_eq (by simp) (by simp))

/-- Settles O12: the skews stand in the peers' records and the bounds in the mark unit, and every command, the
taking of a fire and the tick keep both. -/
theorem skewAndMarkInvariantKept : Obligations.SkewAndMarkInvariantKept :=
  keptByStep_of (Inv := fun s => s.SkewInv ∧ s.MarkInv) (fun _ _ h => h) (fun _ _ h => h)
    (fun _ _ _ ⟨hskew, hmark⟩ ht => ⟨exec_skewInv hskew ht, exec_markBounded hmark ht⟩)
    (fun _ ⟨hskew, hmark⟩ => ⟨hskew.of_records (by simp), MarkUnit.Bounded.of_eq hmark (by simp) (by simp)⟩)
    (fun _ ⟨hskew, hmark⟩ => ⟨hskew.of_records (by simp), MarkUnit.Bounded.of_eq hmark (by simp) (by simp)⟩)

end Sys2Proof.Machine
end

section
/-! PROOFS. About a MARK_NOTE taken from a peer (R91), and about a peer that goes ABSENT (R160, R180). -/

namespace Sys2Proof.Machine

/-! ## A MARK_NOTE (R91) -/

theorem SegHeader.fillPeer_of_mark {h : SegHeader} (ht : h.trigTime.isSome = true) (hc : h.cause = some (.mark none))
    (p : Station) : h.fillPeer p = { h with cause := some (.mark (some p)) } := by
  obtain ⟨t, ht⟩ := Option.isSome_iff_exists.1 ht
  simp [SegHeader.fillPeer, ht, hc]

theorem SegHeader.fillPeer_of_not_mark {h : SegHeader} (hn : h.trigTime = none ∨ h.cause ≠ some (.mark none))
    (p : Station) : h.fillPeer p = h := by
  unfold SegHeader.fillPeer
  split
  · rename_i ht hc
    simp [ht, hc] at hn
  · rfl

/-- The last fire that a MARK_NOTE names (R91). -/
def markNoteFire (f : RxFrame) : LastFire :=
  { seg := byteAt f.payload 0, stamp := BitVec.ofNat 48 (field f.payload 1 6) }

/-- The state with the fire of a MARK_NOTE as its sender's last. -/
def State.keepLastFire (s : State) (f : RxFrame) : State :=
  s.setPeer f.src { s.peer f.src with lastFire := some (markNoteFire f) }

theorem State.takeMarkNote_of_segment {s : State} {f : RxFrame} {k : Fin 8} (hsrc : f.src ≠ s.bus.own)
    (hlen : f.payload.length = 10) (hk : (byteAt f.payload 0).toNat = k.val) :
    State.takeMarkNote f s = (s.keepLastFire f).setHeader k ((s.header k).fillPeer f.src) := by
  have hlt : (byteAt f.payload 0).toNat < 8 := hk ▸ k.isLt
  have hfin : (⟨(byteAt f.payload 0).toNat, hlt⟩ : Fin 8) = k := Fin.ext hk
  simp only [State.takeMarkNote, hsrc, hlen, ne_eq, not_true_eq_false, or_self, if_false, dif_pos hlt, hfin]
  rfl

theorem State.takeMarkNote_of_no_segment {s : State} {f : RxFrame} (hsrc : f.src ≠ s.bus.own)
    (hlen : f.payload.length = 10) (hk : 7 < (byteAt f.payload 0).toNat) :
    State.takeMarkNote f s = s.keepLastFire f := by
  have hge : ¬(byteAt f.payload 0).toNat < 8 := by omega
  simp only [State.takeMarkNote, hsrc, hlen, ne_eq, not_true_eq_false, or_self, if_false, dif_neg hge]
  rfl

/-- A good MARK_NOTE of another station, as the records it changes: its sender's, heard and with a new last fire. -/
theorem State.keepLastFire_peer (s : State) (f : RxFrame) :
    ((s.takeGood f).keepLastFire f).peer f.src =
        { (s.takeGood f).peer f.src with lastFire := some (markNoteFire f) } ∧
      ∀ p, p ≠ f.src → ((s.takeGood f).keepLastFire f).peer p = s.peer p :=
  ⟨State.peer_setPeer_same .., fun p hp =>
    (State.peer_setPeer_other _ _ hp).trans (s.takeGood_other f p (.inl hp))⟩

/-- Beside the good receipt, only records of the peer table change. -/
theorem State.keepLastFire_eq (s : State) (f : RxFrame) :
    (s.takeGood f).keepLastFire f = { s.takeGood f with
      peers := { s.peers with peers := ((s.takeGood f).keepLastFire f).peers.peers } } := by
  rw [s.takeGood_eq f]; rfl

theorem exec_markNote_of_takes {s : State} {f : RxFrame} (h : s.Takes f) :
    exec (.markNote f) s = .next (State.takeMarkNote f (s.takeGood f)) :=
  congrArg Host.Outcome.next (State.receive_takes h _)

/-! ## Places freed in the ask table (R170, R189) -/

/-- One lane's offer adds an own entry or nothing: no other entry, no refusal and no status reply comes. -/
theorem State.offerOwn_asks (s : State) (n : Fin 16) :
    (∀ x ∈ (s.offerOwn n).asks.table, x ∈ s.asks.table ∨ x.own = true) ∧
      (s.offerOwn n).asks.refusals = s.asks.refusals ∧ (s.offerOwn n).asks.status = s.asks.status := by
  have hsame : (∀ x ∈ s.asks.table, x ∈ s.asks.table ∨ x.own = true) ∧
      s.asks.refusals = s.asks.refusals ∧ s.asks.status = s.asks.status := ⟨fun _ => .inl, rfl, rfl⟩
  unfold State.offerOwn
  split
  · rename_i p f _ _
    cases p.zero with
    | none => exact hsame
    | some z =>
      dsimp only
      split
      · refine ⟨fun x hx => ?_, rfl, rfl⟩
        obtain hx | hx := List.mem_append.1 hx
        · exact .inl hx
        · rw [List.mem_singleton.1 hx]; exact .inr rfl
      · exact hsame
  · exact hsame

theorem State.placeFreed_asks (s : State) :
    (∀ x ∈ s.placeFreed.asks.table, x ∈ s.asks.table ∨ x.own = true) ∧
      s.placeFreed.asks.refusals = s.asks.refusals ∧ s.placeFreed.asks.status = s.asks.status := by
  refine foldl_induct (P := fun t : State => (∀ x ∈ t.asks.table, x ∈ s.asks.table ∨ x.own = true) ∧
    t.asks.refusals = s.asks.refusals ∧ t.asks.status = s.asks.status) _ (fun t n h => ?_) _ s
    ⟨fun _ => .inl, rfl, rfl⟩
  obtain ⟨htable, hrefusals, hstatus⟩ := h
  obtain ⟨htable', hrefusals', hstatus'⟩ := t.offerOwn_asks n
  exact ⟨fun x hx => (htable' x hx).elim (htable x) .inr, hrefusals'.trans hrefusals, hstatus'.trans hstatus⟩

/-! ## A peer that goes ABSENT (R160, R180) -/

theorem State.askerAbsent_peer (s : State) (p q : Station) : (s.askerAbsent p).peer q = s.peer q :=
  State.peer_congr (by simp) q

/-- Of an absent asker no entry, refusal or status reply is left, and no frame of the ask service to it but one on the
wire (log entry 29). -/
theorem State.askerAbsent_clears (s : State) (p : Station) :
    (∀ x ∈ (s.askerAbsent p).asks.table, x.own = true ∨ x.asker ≠ p) ∧
      (∀ r ∈ (s.askerAbsent p).asks.refusals, r.asker ≠ p) ∧ (∀ r ∈ (s.askerAbsent p).asks.status, r.asker ≠ p) ∧
      ∀ x ∈ (s.askerAbsent p).bus.queue, x.origin.isAsk = true → x.frame.dst = p → s.bus.onWire = some x.id := by
  unfold State.askerAbsent
  dsimp only
  refine ⟨fun x hx => ?table, ?refusals, ?status, fun x hx hask hdst => ?queue⟩
  case table =>
    obtain hx | hown := (State.placeFreed_asks _).1 x hx
    · simpa using (List.mem_filter.1 hx).2
    · exact .inl hown
  case refusals => rw [(State.placeFreed_asks _).2.1]; simp
  case status => rw [(State.placeFreed_asks _).2.2]; simp
  case queue =>
    simp only [State.placeFreed_frame] at hx
    obtain ⟨-, hwire | hother⟩ := State.mem_withdraw.1 hx
    · simpa [Bus.isOnWire] using hwire
    · simp [hask, hdst] at hother

theorem exec_presenceTimeout_due {s : State} {p : Station} (h : (s.peer p).timedOut s.time = true) :
    exec (.presenceTimeout p) s = .next ((s.setPeer p (s.peer p).goAbsent).askerAbsent p) :=
  congrArg Host.Outcome.next (if_pos h)

/-- Settles O50: a MARK_NOTE by whether it names a segment, and the expiry by what the ask service clears. -/
theorem markNotesAndAbsence : Obligations.MarkNotesAndAbsence := by
  unfold Obligations.MarkNotesAndAbsence
  refine ⟨fun f s k htakes hsrc hlen hk => ?segment, fun f s htakes hsrc hlen hk => ?noSegment,
    fun s p e hpresent htimer hexpired => ?absent⟩
  case segment =>
    have hown : f.src ≠ (s.takeGood f).bus.own := by simpa using hsrc
    obtain ⟨hsender, hothers⟩ := s.keepLastFire_peer f
    rw [exec_markNote_of_takes htakes, State.takeMarkNote_of_segment hown hlen hk]
    have hgood (j : Fin 8) : (s.takeGood f).header j = s.header j := State.header_congr (by simp) j
    have hpeer (h : SegHeader) (p : Station) :
        (((s.takeGood f).keepLastFire f).setHeader k h).peer p = ((s.takeGood f).keepLastFire f).peer p :=
      State.peer_congr (by simp) p
    refine ⟨_, rfl, ?_, ?_, ?_, fun p hp => (hpeer _ p).trans (hothers p hp), fun j hj => ?_, fun ht hc => ?_,
      fun hn => ?_⟩
    · rw [s.takeGood_eq f]; rfl
    · rw [hpeer, hsender]; rfl
    · rw [hpeer, hsender, s.takeGood_peerAfter f hsrc]
    · exact (State.header_setHeader_other _ _ hj).trans (hgood j)
    · rw [State.header_setHeader_same, hgood, SegHeader.fillPeer_of_mark ht hc]
    · rw [State.header_setHeader_same, hgood, SegHeader.fillPeer_of_not_mark hn]
  case noSegment =>
    have hown : f.src ≠ (s.takeGood f).bus.own := by simpa using hsrc
    obtain ⟨hsender, hothers⟩ := s.keepLastFire_peer f
    rw [exec_markNote_of_takes htakes, State.takeMarkNote_of_no_segment hown hlen hk]
    exact ⟨_, rfl, s.keepLastFire_eq f, hsender, hothers⟩
  case absent =>
    have hdue : (s.peer p).timedOut s.time = true := by simp [Peer.timedOut, hpresent, htimer, hexpired]
    obtain ⟨htable, hrefusals, hstatus, hqueue⟩ := (s.setPeer p (s.peer p).goAbsent).askerAbsent_clears p
    refine ⟨_, exec_presenceTimeout_due hdue, ?_, fun q hq => ?_, htable, hrefusals, hstatus, by simpa using hqueue⟩
    · exact (State.askerAbsent_peer _ p p).trans (State.peer_setPeer_same ..)
    · exact (State.askerAbsent_peer _ p q).trans (State.peer_setPeer_other _ _ hq)

end Sys2Proof.Machine
end

section
/-! PROOFS. About the conversion of a peer's time to local time (R167). -/

namespace Sys2Proof.Machine

/-! ## Rounding to the nearest tick (R167) -/

/-- A whole number of ticks passes through the rounding. -/
theorem round24_add_ticks (x n : Int) : round24 (x + n * 2 ^ 24) = round24 x + n := by
  unfold round24
  rw [Int.add_right_comm]
  exact Int.add_mul_ediv_right _ n (by decide)

theorem round24_mono {x y : Int} (h : x ≤ y) : round24 x ≤ round24 y :=
  Int.ediv_le_ediv (by decide) (Int.add_le_add_right h _)

/-! ## Forward conversion (R167) -/

/-- Two differences from the anchor keep their order when converted: a skew within 8,192 moves the product of the
later by less than the 2^24 that a tick between the two is worth. -/
theorem converted_difference_mono {k d1 d2 : Int} (hlo : -8192 ≤ k) (hhi : k ≤ 8192) (hd : d1 ≤ d2) :
    d1 + round24 (d1 * k) ≤ d2 + round24 (d2 * k) := by
  have hgap : (d2 - d1) * -(2 ^ 24) ≤ (d2 - d1) * k :=
    Int.mul_le_mul_of_nonneg_left (by omega) (by omega)
  have hprod : d1 * k ≤ d2 * k + (d2 - d1) * 2 ^ 24 := by
    rw [Int.sub_mul d2 d1 k] at hgap
    omega
  calc d1 + round24 (d1 * k)
      ≤ d1 + round24 (d2 * k + (d2 - d1) * 2 ^ 24) := Int.add_le_add_left (round24_mono hprod) _
    _ = d2 + round24 (d2 * k) := by rw [round24_add_ticks]; omega

theorem forward_anchor (a : Anchor) (k : Int) : forward a k a.remote = a.loc := by
  have hzero : tdiff a.remote a.remote = 0 := by simp [tdiff]
  simp [forward, hzero, round24, shift]

/-- Settles O51: the formula is the definition's, and the order of two times is the order of their differences. -/
theorem forwardConversion : Obligations.ForwardConversion := by
  unfold Obligations.ForwardConversion
  exact fun a k => ⟨fun _ => rfl, forward_anchor a k, fun hlo hhi _ _ => converted_difference_mono hlo hhi⟩

end Sys2Proof.Machine
end

section
/-! PROOFS. About a TIME_NOTE taken from a peer: its chain, its anchors and its skew (R164–R166). -/

namespace Sys2Proof.Machine

/-! ## The skew of a span (R166) -/

theorem Peer.updateSkew_drift (p : Peer) (dR dL : Int) :
    (p.updateSkew dR dL).drift =
      (p.drift || decide (skewEstimate dR dL < -8192) || decide (8192 < skewEstimate dR dL)) := by
  have hrange : (8192 < (skewEstimate dR dL).natAbs) ↔ (skewEstimate dR dL < -8192 ∨ 8192 < skewEstimate dR dL) := by
    omega
  simp only [Peer.updateSkew, hrange, Bool.decide_or, Bool.or_assoc]

/-! ## An anchor taken (R165): the first, one near the base, one far from it -/

theorem Peer.takeAnchor_of_first {p : Peer} (h : p.current = none) (a : Anchor) :
    p.takeAnchor a = { p with current := some a, base := some a } := by
  simp [Peer.takeAnchor, h]

theorem Peer.takeAnchor_of_near {p : Peer} {a b : Anchor} (hc : p.current.isSome = true) (hb : p.base = some b)
    (hnear : tdiff a.remote b.remote < 2 ^ 20) : p.takeAnchor a = { p with current := some a } := by
  obtain ⟨c, hc⟩ := Option.isSome_iff_exists.1 hc
  simp only [Peer.takeAnchor, hc, hb, if_pos hnear]

theorem Peer.takeAnchor_of_far {p : Peer} {a b : Anchor} (hc : p.current.isSome = true) (hb : p.base = some b)
    (hfar : 2 ^ 20 ≤ tdiff a.remote b.remote) :
    p.takeAnchor a = { p.updateSkew (tdiff a.remote b.remote) (tdiff a.loc b.loc) with
      current := some a, base := some a } := by
  obtain ⟨c, hc⟩ := Option.isSome_iff_exists.1 hc
  simp only [Peer.takeAnchor, hc, hb, if_neg (Int.not_lt.2 hfar)]

/-- In every case an anchor becomes current, and leaves presence, chain, details and last fire. -/
theorem Peer.takeAnchor_frame (p : Peer) (a : Anchor) :
    (p.takeAnchor a).current = some a ∧ (p.takeAnchor a).present = p.present ∧
      (p.takeAnchor a).chain = p.chain ∧ (p.takeAnchor a).details = p.details ∧
      (p.takeAnchor a).lastFire = p.lastFire := by
  unfold Peer.takeAnchor
  split
  · dsimp only
    split <;> exact ⟨rfl, rfl, rfl, rfl, rfl⟩
  · exact ⟨rfl, rfl, rfl, rfl, rfl⟩

/-! ## A note taken by its sender's record (R164) -/

/-- The stamp that a TIME_NOTE carries of the note before it, if it carries one (R163). -/
def notePrev (f : RxFrame) : Option StationTime :=
  if bit (byteAt f.payload 1) 0 then some (BitVec.ofNat 48 (field f.payload 2 6)) else none

/-- A note follows on a chain: the chain holds the sequence before it, and it carries a previous stamp (R164). -/
def Chain.Anchored (f : RxFrame) (c : Chain) : Prop :=
  c.seq = byteAt f.payload 0 - 1 ∧ (byteAt f.payload 1).getLsbD 0 = true

/-- A note's sender heard (R160), with the note's sequence and start-edge stamp as its chain (R164). -/
def Peer.extendChain (p : Peer) (f : RxFrame) : Peer :=
  { p.heard f.stamp with chain := some { seq := byteAt f.payload 0, stamp := f.stamp } }

/-- A note's sender heard (R160), and the note taken by the fields its frame bears (R164). -/
def Peer.hearNote (p : Peer) (f : RxFrame) : Peer :=
  (p.heard f.stamp).takeNote (byteAt f.payload 0) (notePrev f) f.stamp

theorem Peer.hearNote_of_anchored {p : Peer} {f : RxFrame} {c : Chain} (hc : p.chain = some c) (h : c.Anchored f) :
    p.hearNote f = (p.extendChain f).takeAnchor
      { remote := BitVec.ofNat 48 (field f.payload 2 6), loc := c.stamp } := by
  obtain ⟨hseq, hbit⟩ := h
  have hprev : notePrev f = some (BitVec.ofNat 48 (field f.payload 2 6)) := if_pos hbit
  simp only [Peer.hearNote, Peer.takeNote, Peer.heard, hc, hprev, if_pos hseq, Peer.extendChain]

theorem Peer.hearNote_of_not_anchored {p : Peer} {f : RxFrame} (h : ∀ c, p.chain = some c → ¬ c.Anchored f) :
    p.hearNote f = p.extendChain f := by
  unfold Peer.hearNote Peer.takeNote
  split
  · rename_i c r hchain hprev
    have hbit : bit (byteAt f.payload 1) 0 = true := by
      refine Decidable.byContradiction fun hno => ?_
      rw [notePrev, if_neg hno] at hprev
      cases hprev
    exact if_neg fun hseq => h c hchain ⟨hseq, hbit⟩
  · rfl

/-- In every case a note makes its sender present and becomes its chain, and leaves details and last fire (R160,
R164). -/
theorem Peer.hearNote_frame (p : Peer) (f : RxFrame) :
    (p.hearNote f).present = true ∧
      (p.hearNote f).chain = some { seq := byteAt f.payload 0, stamp := f.stamp } ∧
      (p.hearNote f).details = p.details ∧ (p.hearNote f).lastFire = p.lastFire := by
  by_cases h : ∃ c, p.chain = some c ∧ c.Anchored f
  · obtain ⟨c, hc, hanchored⟩ := h
    rw [Peer.hearNote_of_anchored hc hanchored]
    exact ((p.extendChain f).takeAnchor_frame _).2
  · rw [Peer.hearNote_of_not_anchored fun c hc hanchored => h ⟨c, hc, hanchored⟩]
    exact ⟨rfl, rfl, rfl, rfl⟩

/-! ## The peer table (R164) -/

/-- The state with a note taken by its sender's record. -/
def State.keepNote (s : State) (f : RxFrame) : State :=
  s.setPeer f.src ((s.peer f.src).takeNote (byteAt f.payload 0) (notePrev f) f.stamp)

theorem State.takeTimeNote_of_peer {s : State} {f : RxFrame} (hsrc : f.src ≠ s.bus.own)
    (hlen : f.payload.length = 8) : State.takeTimeNote f s = s.keepNote f :=
  if_neg (by simp [hsrc, hlen])

theorem exec_timeNote_of_takes {s : State} {f : RxFrame} (h : s.Takes f) (hsrc : f.src ≠ s.bus.own)
    (hlen : f.payload.length = 8) : exec (.timeNote f) s = .next ((s.takeGood f).keepNote f) :=
  congrArg Host.Outcome.next
    ((State.receive_takes h _).trans (State.takeTimeNote_of_peer (by simpa using hsrc) hlen))

/-- A good TIME_NOTE of another station, as the records it changes: its sender's, heard and with the note taken. -/
theorem State.keepNote_peer (s : State) (f : RxFrame) (hsrc : f.src ≠ s.bus.own) :
    ((s.takeGood f).keepNote f).peer f.src = (s.peer f.src).hearNote f ∧
      ∀ p, p ≠ f.src → ((s.takeGood f).keepNote f).peer p = s.peer p := by
  refine ⟨?_, fun p hp => (State.peer_setPeer_other _ _ hp).trans (s.takeGood_other f p (.inl hp))⟩
  rw [State.keepNote, State.peer_setPeer_same, s.takeGood_peerAfter f hsrc]
  rfl

/-- Beside the good receipt, only records of the peer table change. -/
theorem State.keepNote_eq (s : State) (f : RxFrame) :
    (s.takeGood f).keepNote f = { s.takeGood f with
      peers := { s.peers with peers := ((s.takeGood f).keepNote f).peers.peers } } := by
  rw [s.takeGood_eq f]; rfl

/-- Settles O48: by whether the note follows on the chain, and then by where its anchor lies from the base. -/
theorem timeNoteFormsAnchor : Obligations.TimeNoteFormsAnchor := by
  unfold Obligations.TimeNoteFormsAnchor
  intro f s htakes hsrc hlen
  obtain ⟨hsender, hothers⟩ := s.keepNote_peer f hsrc
  obtain ⟨hpresent, hchain, hdetails, hfire⟩ := (s.peer f.src).hearNote_frame f
  refine ⟨_, exec_timeNote_of_takes htakes hsrc hlen, s.keepNote_eq f, hothers, ?_⟩
  rw [hsender]
  refine ⟨hpresent, hchain, hdetails, hfire, fun hnone => ?stays, fun c hc hanchored => ?anchor⟩
  case stays =>
    rw [Peer.hearNote_of_not_anchored hnone]
    exact ⟨rfl, rfl, rfl, rfl⟩
  case anchor =>
    rw [Peer.hearNote_of_anchored hc hanchored]
    refine ⟨(Peer.takeAnchor_frame ..).1, fun hfirst => ?first,
      fun b hcurrent hbase => ⟨fun hnear => ?near, fun hfar => ?far⟩⟩
    case first =>
      rw [Peer.takeAnchor_of_first (p := (s.peer f.src).extendChain f) hfirst]
      exact ⟨rfl, rfl, rfl⟩
    case near =>
      rw [Peer.takeAnchor_of_near (p := (s.peer f.src).extendChain f) hcurrent hbase hnear]
      exact ⟨hbase, rfl, rfl⟩
    case far =>
      rw [Peer.takeAnchor_of_far (p := (s.peer f.src).extendChain f) hcurrent hbase hfar]
      exact ⟨rfl, rfl, rfl, Peer.updateSkew_drift ..⟩

end Sys2Proof.Machine
end

section
/-! PROOFS. About a reduction: where its column boundaries lie (R172), what decides the class and the glitch flag of a
column (R173), and the runs its columns are packed into (R174). -/

namespace Sys2Proof.Machine

/-! ## Neighbours in a list -/

section
variable {α β : Type} {R : α → α → Prop}

/-- Every two neighbours of a list are related. -/
def Neighbours (R : α → α → Prop) (l : List α) : Prop := ∀ l1 a b l2, l = l1 ++ a :: b :: l2 → R a b

theorem neighbours_nil : Neighbours R [] := fun l1 _ _ _ h => absurd h.symm (by simp)

theorem neighbours_cons {a : α} {l : List α} :
    Neighbours R (a :: l) ↔ (∀ b ∈ l.head?, R a b) ∧ Neighbours R l := by
  constructor
  · refine fun h => ⟨fun b hb => ?_, fun l1 x y l2 heq => h (a :: l1) x y l2 (congrArg (a :: ·) heq)⟩
    obtain ⟨l2, rfl⟩ := List.head?_eq_some_iff.1 hb
    exact h [] a b l2 rfl
  · rintro ⟨hhead, htail⟩ l1 x y l2 heq
    cases l1 with
    | nil =>
      obtain ⟨rfl, rfl⟩ := List.cons.inj heq
      exact hhead y rfl
    | cons z l1 => exact htail l1 x y l2 (List.cons.inj heq).2

theorem neighbours_singleton (a : α) : Neighbours R [a] :=
  neighbours_cons.2 ⟨fun _ hb => (nomatch hb), neighbours_nil⟩

theorem Neighbours.append {l m : List α} (hl : Neighbours R l) (hm : Neighbours R m)
    (hbetween : ∀ a ∈ l.getLast?, ∀ b ∈ m.head?, R a b) : Neighbours R (l ++ m) := by
  induction l with
  | nil => exact hm
  | cons a l ih =>
    obtain ⟨hhead, htail⟩ := neighbours_cons.1 hl
    rw [List.cons_append]
    cases l with
    | nil => exact neighbours_cons.2 ⟨hbetween a rfl, hm⟩
    | cons b l => exact neighbours_cons.2 ⟨hhead, ih htail (by rwa [List.getLast?_cons_cons] at hbetween)⟩

theorem Neighbours.map {f : β → α} {l : List β} (h : Neighbours (fun a b => R (f a) (f b)) l) :
    Neighbours R (l.map f) := by
  induction l with
  | nil => exact neighbours_nil
  | cons a l ih =>
    obtain ⟨hhead, htail⟩ := neighbours_cons.1 h
    refine neighbours_cons.2 ⟨fun b hb => ?_, ih htail⟩
    rw [List.head?_map] at hb
    obtain ⟨c, hc, rfl⟩ := Option.map_eq_some_iff.1 hb
    exact hhead c hc

end

/-! ## Column boundaries (R172) -/

/-- A boundary stands at its rounded offset where that lies above the one before, and one tick after it otherwise. -/
theorem columnOffset_succ (w : Nat) (k : Int) (c : Nat) :
    columnOffset w k (c + 1) =
      if columnOffset w k c < rawOffset w k (c + 1) then rawOffset w k (c + 1) else columnOffset w k c + 1 := by
  simp only [columnOffset]
  split <;> split <;> omega

theorem columnOffset_lt_succ (w : Nat) (k : Int) (c : Nat) : columnOffset w k c < columnOffset w k (c + 1) := by
  rw [columnOffset_succ]
  split <;> omega

theorem columnOffset_lt (w : Nat) (k : Int) {c d : Nat} (h : c < d) : columnOffset w k c < columnOffset w k d := by
  induction h with
  | refl => exact columnOffset_lt_succ w k c
  | step _ ih => exact Int.lt_trans ih (columnOffset_lt_succ w k _)

/-! ## Class and glitch flag of a column (R173) -/

/-- A toggle is a record inside the interval whose level differs from that of the record before it: the one before in
the list or, for the first, the level that stood before the list. -/
theorem togglesIn_iff {ch : Chan} {lo hi : StationTime} {rs : List (StationTime × Rec)} {prev : Bool} :
    togglesIn ch lo hi prev rs = true ↔
      (∃ v d m, rs = (v, d) :: m ∧ earlier lo v = true ∧ earlier v hi = true ∧ prev ≠ chanBit d.levels ch) ∨
        ∃ l u a v d m, rs = l ++ (u, a) :: (v, d) :: m ∧ earlier lo v = true ∧ earlier v hi = true ∧
          chanBit a.levels ch ≠ chanBit d.levels ch := by
  induction rs generalizing prev with
  | nil => simp [togglesIn]
  | cons x rs ih =>
    obtain ⟨u, a⟩ := x
    rw [togglesIn, Bool.or_eq_true, ih]
    refine or_congr ?here ?later
    case here =>
      simp only [Bool.and_eq_true, bne_iff_ne, and_assoc]
      constructor
      · rintro ⟨hlo, hhi, hne⟩
        exact ⟨u, a, rs, rfl, hlo, hhi, hne.symm⟩
      · rintro ⟨v, d, m, heq, hlo, hhi, hne⟩
        obtain ⟨⟨rfl, rfl⟩, -⟩ : (u = v ∧ a = d) ∧ rs = m := by simpa using heq
        exact ⟨hlo, hhi, hne.symm⟩
    case later =>
      constructor
      · rintro (⟨v, d, m, rfl, hv⟩ | ⟨l, u', a', v, d, m, rfl, hv⟩)
        · exact ⟨[], u, a, v, d, m, rfl, hv⟩
        · exact ⟨(u, a) :: l, u', a', v, d, m, rfl, hv⟩
      · rintro ⟨l, u', a', v, d, m, heq, hv⟩
        obtain - | ⟨y, l⟩ := l
        · obtain ⟨⟨rfl, rfl⟩, rfl⟩ : (u = u' ∧ a = a') ∧ rs = (v, d) :: m := by simpa using heq
          exact .inl ⟨v, d, m, rfl, hv⟩
        · exact .inr ⟨l, u', a', v, d, m, (List.cons.inj heq).2, hv⟩

/-- The level at a time is that of the last record at or before it. -/
theorem levelAt_of_split {ch : Chan} {lo u : StationTime} {a : Rec} {l m : List (StationTime × Rec)}
    (hl : ∀ x ∈ l, notAfter x.1 lo = true) (hu : notAfter u lo = true) (hm : ∀ x ∈ m, notAfter x.1 lo = false)
    (lvl : Bool) : levelAt ch lo lvl (l ++ (u, a) :: m) = chanBit a.levels ch := by
  induction l generalizing lvl with
  | nil =>
    rw [List.nil_append, levelAt, if_pos hu]
    cases m with
    | nil => rfl
    | cons x m => rw [levelAt, if_neg (by simp [hm x List.mem_cons_self])]
  | cons x l ih =>
    rw [List.cons_append, levelAt, if_pos (hl x List.mem_cons_self)]
    exact ih (fun y hy => hl y (List.mem_cons_of_mem x hy)) _

/-- The level of a segment's first record, which stands before its list of records too. -/
def firstLevel (ch : Chan) : List (StationTime × Rec) → Bool
  | [] => false
  | (_, r) :: _ => chanBit r.levels ch

theorem columnClass_of_empty {rs : List (StationTime × Rec)} {base close b0 b1 : StationTime} {ch : Chan}
    (h : earlier (later b0 base) (sooner b1 close) = false) :
    columnClass rs base close ch b0 b1 = (.none, false) := by
  simp [columnClass, h]

theorem columnClass_of_interval {rs : List (StationTime × Rec)} {base close b0 b1 : StationTime} {ch : Chan}
    (h : earlier (later b0 base) (sooner b1 close) = true) :
    columnClass rs base close ch b0 b1 =
      (if togglesIn ch (later b0 base) (sooner b1 close) (firstLevel ch rs) rs then .toggle
        else if levelAt ch (later b0 base) (firstLevel ch rs) rs then .high else .low,
        glitchIn ch (later b0 base) (sooner b1 close) rs) := by
  simp only [columnClass, h]
  cases rs <;> rfl

/-- The first record of a segment toggles nothing: only a record with one before it can. -/
theorem togglesIn_firstLevel_iff {ch : Chan} {lo hi : StationTime} {rs : List (StationTime × Rec)} :
    togglesIn ch lo hi (firstLevel ch rs) rs = true ↔
      ∃ l u a v d m, rs = l ++ (u, a) :: (v, d) :: m ∧ earlier lo v = true ∧ earlier v hi = true ∧
        chanBit a.levels ch ≠ chanBit d.levels ch := by
  rw [togglesIn_iff, or_iff_right]
  rintro ⟨v, d, m, rfl, -, -, hne⟩
  exact hne rfl

/-- Settles O55: the offsets by their recursion, a column by whether its effective interval is empty. -/
theorem columnBoundariesIncrease : Obligations.ColumnBoundariesIncrease := by
  unfold Obligations.ColumnBoundariesIncrease
  refine ⟨fun w k => ⟨rfl, columnOffset_succ w k, fun _ _ => columnOffset_lt w k⟩,
    fun rs base close b0 b1 ch => ⟨columnClass_of_empty, fun hinterval => ?_⟩⟩
  rw [columnClass_of_interval hinterval]
  dsimp only
  refine ⟨?someClass, ?toggle, fun l u a m hrs hl hu hm hno => ?level, ?glitch⟩
  case someClass =>
    repeat' split
    all_goals simp
  case toggle =>
    rw [← togglesIn_firstLevel_iff]
    split
    · simp [*]
    · split <;> simp [*]
  case level =>
    rw [if_neg fun htoggle => hno (if_pos htoggle)]
    subst hrs
    rw [levelAt_of_split hl hu hm]
  case glitch => simp [glitchIn, and_assoc]

/-! ## Runs (R174) -/

/-- Class and glitch flag of the columns of a run. -/
def Run.key (r : Run) : ColClass × Bool := (r.cls, r.glitch)

/-- A column before some runs joins the first of them where its class and glitch flag are that run's, and opens a run
of its own otherwise. -/
theorem packRuns_cons (x : ColClass × Bool) (l : List (ColClass × Bool)) :
    (∃ r rest, packRuns l = r :: rest ∧ r.key = x ∧
        packRuns (x :: l) = { r with length := r.length + 1 } :: rest) ∨
      ((∀ r ∈ (packRuns l).head?, x ≠ r.key) ∧
        packRuns (x :: l) = { cls := x.1, glitch := x.2, length := 1 } :: packRuns l) := by
  obtain ⟨c, g⟩ := x
  rw [packRuns]
  cases hruns : packRuns l with
  | nil => exact .inr ⟨by simp, rfl⟩
  | cons r rest =>
    dsimp only
    split
    · rename_i h
      exact .inl ⟨r, rest, rfl, Prod.ext h.1 h.2, rfl⟩
    · rename_i h
      refine .inr ⟨fun r' hr' heq => h ?_, rfl⟩
      obtain rfl : r = r' := by simpa using hr'
      exact ⟨(congrArg Prod.fst heq).symm, (congrArg Prod.snd heq).symm⟩

theorem packRuns_spells (l : List (ColClass × Bool)) :
    (packRuns l).flatMap (fun r => List.replicate r.length r.key) = l := by
  induction l with
  | nil => rfl
  | cons x l ih =>
    obtain ⟨r, rest, hruns, rfl, hcons⟩ | ⟨-, hcons⟩ := packRuns_cons x l
    · rw [hruns] at ih
      rw [hcons, List.flatMap_cons, List.replicate_succ, List.cons_append]
      exact congrArg (r.key :: ·) ih
    · rw [hcons, List.flatMap_cons, ih]
      rfl

theorem one_le_length_of_mem_packRuns {l : List (ColClass × Bool)} : ∀ r ∈ packRuns l, 1 ≤ r.length := by
  induction l with
  | nil => simp [packRuns]
  | cons x l ih =>
    obtain ⟨r, rest, hruns, -, hcons⟩ | ⟨-, hcons⟩ := packRuns_cons x l
    · rw [hruns] at ih
      rw [hcons]
      rw [List.forall_mem_cons] at ih ⊢
      exact ⟨Nat.le_add_left .., ih.2⟩
    · rw [hcons]
      exact List.forall_mem_cons.2 ⟨Nat.le_refl 1, ih⟩

theorem neighbours_packRuns (l : List (ColClass × Bool)) : Neighbours (fun a b => a.key ≠ b.key) (packRuns l) := by
  induction l with
  | nil => exact neighbours_nil
  | cons x l ih =>
    obtain ⟨r, rest, hruns, -, hcons⟩ | ⟨hne, hcons⟩ := packRuns_cons x l
    · rw [hruns, neighbours_cons] at ih
      rw [hcons, neighbours_cons]
      exact ih
    · rw [hcons, neighbours_cons]
      exact ⟨hne, ih⟩

/-- The lengths of the runs sum to the number of columns, as the runs spell them. -/
theorem sum_length_packRuns (l : List (ColClass × Bool)) : ((packRuns l).map (·.length)).sum = l.length := by
  simpa [List.length_flatMap] using congrArg List.length (packRuns_spells l)

theorem length_packRuns_le (l : List (ColClass × Bool)) : (packRuns l).length ≤ l.length := by
  induction l with
  | nil => exact Nat.le_refl 0
  | cons x l ih =>
    obtain ⟨r, rest, hruns, -, hcons⟩ | ⟨-, hcons⟩ := packRuns_cons x l
    · rw [hruns] at ih
      rw [hcons]
      exact Nat.le_succ_of_le ih
    · rw [hcons]
      exact Nat.succ_le_succ ih

/-- Settles O56, by what one more column before the others does to their runs. -/
theorem runsSpellColumns : Obligations.RunsSpellColumns := by
  unfold Obligations.RunsSpellColumns
  exact fun l => ⟨packRuns_spells l, sum_length_packRuns l, one_le_length_of_mem_packRuns, length_packRuns_le l,
    neighbours_packRuns l⟩

end Sys2Proof.Machine
end

section
/-! PROOFS. About the ask table (R170): its entries by their names, and what a REDUCE_ASK or WORDS_ASK from another
station does to it. -/

namespace Sys2Proof.Machine

/-! ## Entries by their names -/

theorem filter_id_ne_of_split {l r : List AskEntry} {x : AskEntry} (h : ∀ y ∈ l ++ r, y.id ≠ x.id) :
    ((l ++ x :: r).filter fun e => e.id != x.id) = l ++ r := by
  obtain ⟨hl, hr⟩ := List.forall_mem_append.1 h
  rw [List.filter_append, List.filter_cons_of_neg (by simp), List.filter_eq_self.2 (by simpa using hl),
    List.filter_eq_self.2 (by simpa using hr)]

theorem map_id_eq_of_split {l r : List AskEntry} {x : AskEntry} (h : ∀ y ∈ l ++ r, y.id ≠ x.id)
    (f : AskEntry → AskEntry) : ((l ++ x :: r).map fun e => if e.id = x.id then f e else e) = l ++ f x :: r := by
  have hother (m : List AskEntry) (hm : ∀ y ∈ m, y.id ≠ x.id) :
      (m.map fun e => if e.id = x.id then f e else e) = m :=
    (List.map_congr_left fun y hy => if_neg (hm y hy)).trans (List.map_id' m)
  obtain ⟨hl, hr⟩ := List.forall_mem_append.1 h
  rw [List.map_append, List.map_cons, hother l hl, hother r hr, if_pos rfl]

theorem AskEntry.isAsk_iff {e : AskEntry} {p : Station} {tag : Byte} :
    e.isAsk p tag = true ↔ e.own = false ∧ e.asker = p ∧ e.tag = tag := by
  simp [AskEntry.isAsk, and_assoc]

/-- The one entry with an asker and a tag is the one found by them. -/
theorem find?_isAsk_of_split {l r : List AskEntry} {x : AskEntry} {p : Station} {tag : Byte}
    (hx : x.isAsk p tag = true) (hl : ∀ y ∈ l, ¬ y.isAsk p tag = true) :
    (l ++ x :: r).find? (fun y => y.isAsk p tag) = some x := by
  rw [List.find?_append, List.find?_eq_none.2 hl, Option.none_or]
  exact List.find?_cons_of_pos hx

/-! ## An ask taken (R170) -/

section
variable {words : Bool} {f : RxFrame} {s : State}

/-- The entry an ask makes. -/
def State.newAsk (s : State) (words : Bool) (f : RxFrame) : AskEntry := readAsk s.order f.src words f.payload

theorem State.takeAsk_of_ask (hsrc : f.src ≠ s.bus.own) (hlen : f.payload.length = 17) :
    State.takeAsk words f s =
      match s.asks.table.find? fun x => x.isAsk f.src (byteAt f.payload 0) with
      | some old =>
        if old.serving then (s.abandonEntry old.id).appendEntry (s.newAsk words f)
        else s.overwriteEntry old (s.newAsk words f)
      | none =>
        if s.asks.table.length < Config.askEntries then s.appendEntry (s.newAsk words f)
        else s.refuse (s.newAsk words f) true .busy :=
  if_neg (by simp [hsrc, hlen])

theorem State.takeAsk_of_known {l r : List AskEntry} {x : AskEntry} (hsrc : f.src ≠ s.bus.own)
    (hlen : f.payload.length = 17) (htable : s.asks.table = l ++ x :: r)
    (hx : x.isAsk f.src (byteAt f.payload 0) = true) (hl : ∀ y ∈ l, ¬ y.isAsk f.src (byteAt f.payload 0) = true) :
    State.takeAsk words f s =
      if x.serving then (s.abandonEntry x.id).appendEntry (s.newAsk words f)
      else s.overwriteEntry x (s.newAsk words f) := by
  rw [State.takeAsk_of_ask hsrc hlen, htable, find?_isAsk_of_split hx hl]

theorem State.takeAsk_of_new (hsrc : f.src ≠ s.bus.own) (hlen : f.payload.length = 17)
    (hnew : ∀ y ∈ s.asks.table, ¬ y.isAsk f.src (byteAt f.payload 0) = true) :
    State.takeAsk words f s =
      if s.asks.table.length < 8 then s.appendEntry (s.newAsk words f)
      else s.refuse (s.newAsk words f) true .busy := by
  rw [State.takeAsk_of_ask hsrc hlen, List.find?_eq_none.2 hnew]
  rfl

end

/-- An abandoned entry leaves no frame in the queue but one on the wire (R177). -/
theorem State.abandonEntry_queue {s : State} {id : Nat} {y : QEntry} (hy : y ∈ (s.abandonEntry id).bus.queue)
    (ho : y.origin = .askPart id) : s.bus.onWire = some y.id := by
  obtain ⟨-, hwire | hother⟩ := State.mem_withdraw.1 hy
  · simpa [Bus.isOnWire] using hwire
  · simp [Origin.isPartOf, ho] at hother

theorem exec_ask_of_takes {f : RxFrame} {s : State} (h : s.Takes f) (words : Bool) :
    exec (if words then .wordsAsk f else .reduceAsk f) s = .next (State.takeAsk words f (s.takeGood f)) := by
  cases words <;> exact congrArg Host.Outcome.next (State.receive_takes h _)

/-- Settles O52: by whether the table has an entry of this asker and tag, and by whether it is SERVING or, without one,
the table is full. -/
theorem askTaken : Obligations.AskTaken := by
  unfold Obligations.AskTaken
  intro words f s htakes hsrc hlen
  have hown : f.src ≠ (s.takeGood f).bus.own := by simpa using hsrc
  have hasks : (s.takeGood f).asks = s.asks := by simp
  refine ⟨_, (s.takeGood f).newAsk words f, exec_ask_of_takes htakes words,
    ⟨rfl, rfl, rfl, rfl, rfl, rfl, rfl, rfl, rfl, rfl, rfl⟩, ?_⟩
  simp only [← AskEntry.isAsk_iff, ← hasks]
  refine ⟨fun l x r htable hx hothers hwaiting => ?overwritten, fun l x r htable hx hothers hserving => ?replaced,
    fun hnew hroom => ?appended, fun hnew hfull => ?refused⟩
  case overwritten =>
    have hl : ∀ y ∈ l, ¬ y.isAsk f.src (byteAt f.payload 0) = true :=
      fun y hy => (hothers y (List.mem_append_left r hy)).1
    rw [State.takeAsk_of_known hown hlen htable hx hl, if_neg (by simp [hwaiting])]
    exact ⟨(congrArg _ htable).trans (map_id_eq_of_split (fun y hy => (hothers y hy).2) _), rfl⟩
  case replaced =>
    have hl : ∀ y ∈ l, ¬ y.isAsk f.src (byteAt f.payload 0) = true :=
      fun y hy => (hothers y (List.mem_append_left r hy)).1
    rw [State.takeAsk_of_known hown hlen htable hx hl, if_pos hserving]
    refine ⟨?_, rfl, fun y hy ho => ?_⟩
    · rw [← filter_id_ne_of_split fun y hy => (hothers y hy).2, ← htable]
      rfl
    · simpa using State.abandonEntry_queue hy ho
  case appended =>
    rw [State.takeAsk_of_new hown hlen hnew, if_pos hroom]
    exact ⟨rfl, rfl⟩
  case refused =>
    rw [State.takeAsk_of_new hown hlen hnew, if_neg (Nat.not_lt.2 hfull)]
    refine ⟨rfl, ?_⟩
    rw [show s.order = (s.takeGood f).order by simp]
    rfl

end Sys2Proof.Machine
end

section
/-! PROOFS. About the words a WORDS reply reads, in their order, and the box of one word (R175). -/

namespace Sys2Proof.Machine

/-! ## Times within half the wrap of an origin (1.8) -/

theorem tdiff_eq_of_within {t0 a b : StationTime} (ha : (a - t0).toNat < 2 ^ 47) (hb : (b - t0).toNat < 2 ^ 47) :
    tdiff a b = (a - t0).toNat - (b - t0).toNat := by
  have h : a - b = (a - t0) - (b - t0) := by bv_omega
  rw [tdiff, h, BitVec.toInt_eq_toNat_cond, BitVec.toNat_sub]
  split <;> omega

/-- The place of a word in the order of R175, as one number: its start time and then its end time, each as its distance
from an origin. -/
def Word.sortKey (t0 : StationTime) (w : Word) : Nat := (w.start - t0).toNat * 2 ^ 48 + (w.stop - t0).toNat

/-- Both times of a word lie within half the wrap after an origin. -/
def Word.Within (t0 : StationTime) (w : Word) : Prop :=
  (w.start - t0).toNat < 2 ^ 47 ∧ (w.stop - t0).toNat < 2 ^ 47

theorem wordBefore_iff {t0 : StationTime} {a b : Word} (ha : a.Within t0) (hb : b.Within t0) :
    wordBefore a b = true ↔ a.sortKey t0 ≤ b.sortKey t0 := by
  obtain ⟨hsa, hea⟩ := ha
  obtain ⟨hsb, heb⟩ := hb
  have hstart : a.start = b.start ↔ (a.start - t0).toNat = (b.start - t0).toNat := by
    rw [BitVec.toNat_inj, BitVec.sub_left_inj]
  simp only [wordBefore, earlier, notAfter, Bool.or_eq_true, Bool.and_eq_true, decide_eq_true_eq, beq_iff_eq,
    tdiff_eq_of_within hsa hsb, tdiff_eq_of_within hea heb, hstart, Word.sortKey]
  omega

/-! ## The sort (R175) -/

theorem mem_insertWord {w x : Word} {l : List Word} : x ∈ insertWord w l ↔ x = w ∨ x ∈ l := by
  induction l with
  | nil => simp [insertWord]
  | cons y l ih =>
    rw [insertWord]
    split
    · rw [List.mem_cons, ih, List.mem_cons, or_left_comm]
    · exact List.mem_cons

section
variable {t0 : StationTime} {w : Word} {l : List Word}

/-- A word that the first of a sorted list does not come before is strictly before all of it. -/
theorem sortKey_lt_of_not_wordBefore {x : Word} (hw : w.Within t0) (hl : ∀ y ∈ x :: l, y.Within t0)
    (hsorted : (x :: l).Pairwise fun a b => wordBefore a b = true) (h : ¬ wordBefore x w = true) :
    ∀ y ∈ x :: l, w.sortKey t0 < y.sortKey t0 := by
  have hx : x.Within t0 := hl x List.mem_cons_self
  rw [wordBefore_iff hx hw, Nat.not_le] at h
  refine fun y hy => (List.mem_cons.1 hy).elim (fun heq => heq ▸ h) fun hmem => ?_
  exact Nat.lt_of_lt_of_le h ((wordBefore_iff hx (hl y hy)).1 (List.rel_of_pairwise_cons hsorted hmem))

theorem insertWord_sorted (hw : w.Within t0) (hl : ∀ y ∈ l, y.Within t0)
    (hsorted : l.Pairwise fun a b => wordBefore a b = true) :
    (insertWord w l).Pairwise fun a b => wordBefore a b = true := by
  induction l with
  | nil => exact List.pairwise_singleton _ _
  | cons x l ih =>
    obtain ⟨hx, hrest⟩ := List.pairwise_cons.1 hsorted
    rw [insertWord]
    split
    · rename_i hbefore
      refine List.pairwise_cons.2 ⟨fun y hy => ?_, ih (fun y hy => hl y (List.mem_cons_of_mem x hy)) hrest⟩
      obtain rfl | hy := mem_insertWord.1 hy
      · exact hbefore
      · exact hx y hy
    · rename_i hnot
      refine List.pairwise_cons.2 ⟨fun y hy => ?_, hsorted⟩
      exact (wordBefore_iff hw (hl y hy)).2 (Nat.le_of_lt (sortKey_lt_of_not_wordBefore hw hl hsorted hnot y hy))

/-- Both times of a word are these two. -/
def Word.spans (t u : StationTime) (w : Word) : Bool := w.start == t && w.stop == u

/-- Words of one start and end time keep the order in which they were inserted. -/
theorem filter_insertWord (hw : w.Within t0) (hl : ∀ y ∈ l, y.Within t0)
    (hsorted : l.Pairwise fun a b => wordBefore a b = true) (t u : StationTime) :
    (insertWord w l).filter (Word.spans t u) = (l ++ [w]).filter (Word.spans t u) := by
  induction l with
  | nil => rfl
  | cons x l ih =>
    rw [insertWord]
    split
    · rw [List.filter_cons, ih (fun y hy => hl y (List.mem_cons_of_mem x hy)) (List.pairwise_cons.1 hsorted).2,
        List.cons_append, List.filter_cons]
    · rename_i hnot
      have hlt := sortKey_lt_of_not_wordBefore hw hl hsorted hnot
      rw [List.filter_append]
      by_cases hspans : w.spans t u = true
      · have hnone : (x :: l).filter (Word.spans t u) = [] := by
          refine List.filter_eq_nil_iff.2 fun y hy hsame => Nat.ne_of_lt (hlt y hy) ?_
          simp only [Word.spans, Bool.and_eq_true, beq_iff_eq] at hspans hsame
          simp [Word.sortKey, hspans, hsame]
        rw [List.filter_cons, hnone]
        simp [hspans]
      · rw [List.filter_cons_of_neg hspans]
        simp [hspans]

end

/-- Words sorted into a sorted list: the result is sorted, and words of one start and end time stand in the order of
the list and then in that of the words. -/
theorem foldl_insertWord_sorts {t0 : StationTime} (held : List Word) : ∀ l : List Word,
    (∀ w ∈ held, w.Within t0) → (∀ w ∈ l, w.Within t0) → (l.Pairwise fun a b => wordBefore a b = true) →
    ((held.foldl (fun l w => insertWord w l) l).Pairwise fun a b => wordBefore a b = true) ∧
      ∀ t u, (held.foldl (fun l w => insertWord w l) l).filter (Word.spans t u) =
        (l ++ held).filter (Word.spans t u) := by
  induction held with
  | nil => exact fun l _ _ hsorted => ⟨hsorted, fun t u => by rw [List.append_nil, List.foldl_nil]⟩
  | cons w held ih =>
    intro l hheld hl hsorted
    obtain ⟨hw, hheld⟩ := List.forall_mem_cons.1 hheld
    obtain ⟨hpairwise, hstable⟩ := ih (insertWord w l) hheld
      (fun x hx => (mem_insertWord.1 hx).elim (fun heq => heq ▸ hw) (hl x)) (insertWord_sorted hw hl hsorted)
    refine ⟨hpairwise, fun t u => ?_⟩
    rw [List.foldl_cons, hstable, List.filter_append, filter_insertWord hw hl hsorted, ← List.filter_append,
      List.append_assoc, List.singleton_append]

/-- The words of a decoder and segment, queue A's before queue B's (R175). -/
def State.heldWords (s : State) (seg : Fin 8) (dec : Fin 4) : List Word :=
  (s.words.qa.words ++ s.words.qb.words).filter fun w => w.decoder == dec && w.seg == seg

/-- The words a WORDS reply reads are sorted by start and end time, and stably. -/
theorem State.askedWords_sorted {s : State} {seg : Fin 8} {dec : Fin 4} {t0 : StationTime}
    (h : ∀ w ∈ s.heldWords seg dec, w.Within t0) :
    ((s.askedWords seg dec).Pairwise fun a b =>
        earlier a.start b.start = true ∨ a.start = b.start ∧ notAfter a.stop b.stop = true) ∧
      ∀ t u, (s.askedWords seg dec).filter (fun w => w.start == t && w.stop == u) =
        (s.heldWords seg dec).filter fun w => w.start == t && w.stop == u := by
  obtain ⟨hsorted, hstable⟩ := foldl_insertWord_sorts (s.heldWords seg dec) [] h (by simp) .nil
  exact ⟨hsorted.imp fun hbefore => by simpa [wordBefore] using hbefore, hstable⟩

/-! ## The box of one word (R175) -/

/-- The column of a time is the last one whose boundary is at or before it, and 0 where there is none. -/
theorem columnOf_spec (b : Nat → StationTime) (t : StationTime) (n : Nat) :
    columnOf b t n ≤ n ∧ (columnOf b t n = 0 ∨ notAfter (b (columnOf b t n)) t = true) ∧
      ∀ d, columnOf b t n < d → d ≤ n → notAfter (b d) t = false := by
  induction n with
  | zero => exact ⟨Nat.le_refl 0, .inl rfl, fun d hlo hhi => absurd hlo (Nat.not_lt.2 hhi)⟩
  | succ n ih =>
    rw [columnOf]
    split
    · rename_i hat
      exact ⟨Nat.le_refl _, .inr hat, fun d hlo hhi => absurd hlo (Nat.not_lt.2 hhi)⟩
    · rename_i hnot
      obtain ⟨hle, hat, hlater⟩ := ih
      refine ⟨Nat.le_succ_of_le hle, hat, fun d hlo hhi => ?_⟩
      obtain heq | hlt := Nat.eq_or_lt_of_le hhi
      · rw [heq]
        exact Bool.eq_false_iff.2 hnot
      · exact hlater d hlo (Nat.le_of_lt_succ hlt)

/-- The same of an entry's columns. -/
theorem AskEntry.columnOf_spec {e : AskEntry} (h : 1 ≤ e.columns) (t : StationTime) :
    columnOf e.boundary t (e.columns - 1) < e.columns ∧
      (columnOf e.boundary t (e.columns - 1) = 0 ∨
        notAfter (e.boundary (columnOf e.boundary t (e.columns - 1))) t = true) ∧
      ∀ d, columnOf e.boundary t (e.columns - 1) < d → d < e.columns → notAfter (e.boundary d) t = false := by
  obtain ⟨hle, hat, hlater⟩ := Machine.columnOf_spec e.boundary t (e.columns - 1)
  exact ⟨by omega, hat, fun d hlo hhi => hlater d hlo (by omega)⟩

theorem Word.isError_iff (w : Word) :
    w.isError = true ↔ w.kind = .error ∨ w.kind = .brk ∨ w.flags.parity = true ∨ w.flags.framing = true ∨
      w.flags.short = true := by
  simp [Word.isError, or_assoc]

end Sys2Proof.Machine
end

section
/-! PROOFS. About the boxes of a WORDS reply (R175, R176): which words share a box, and what stands in it. -/

namespace Sys2Proof.Machine

/-! ## The box of some words (R176) -/

/-- The last column that a word and those after it reach. -/
def AskEntry.reach (e : AskEntry) (w : Word) (l : List Word) : Nat :=
  (l.map fun y => (e.boxOf y).last).foldl max (e.boxOf w).last

/-- One of some words has a mark. -/
def AskEntry.anyMark (e : AskEntry) (mark : Box → Bool) (g : Word × List Word) : Bool :=
  (g.1 :: g.2).any fun w => mark (e.boxOf w)

/-- The box that holds a word and those that joined it. -/
def AskEntry.groupBox (e : AskEntry) (g : Word × List Word) : Box :=
  { e.boxOf g.1 with
    last := e.reach g.1 g.2, clipL := e.anyMark (·.clipL) g, clipR := e.anyMark (·.clipR) g
    error := e.anyMark (·.error) g, dense := decide (0 < g.2.length)
    value := if g.2 = [] then g.1.value.toNat else min 65535 (g.2.length + 1) }

/-- The MORE box over words not placed, where there are any. -/
def AskEntry.moreBoxes (e : AskEntry) : List Word → List Box
  | [] => []
  | w :: l => [{ e.boxOf w with last := e.columns - 1, value := min 65535 (l.length + 1), more := true }]

theorem AskEntry.groupBox_single (e : AskEntry) (w : Word) : e.groupBox (w, []) = e.boxOf w := by
  simp [AskEntry.groupBox, AskEntry.reach, AskEntry.anyMark, AskEntry.boxOf]

theorem AskEntry.reach_concat (e : AskEntry) (w y : Word) (l : List Word) :
    e.reach w (l ++ [y]) = max (e.reach w l) (e.boxOf y).last := by
  simp [AskEntry.reach]

theorem AskEntry.anyMark_concat (e : AskEntry) (mark : Box → Bool) (w y : Word) (l : List Word) :
    e.anyMark mark (w, l ++ [y]) = (e.anyMark mark (w, l) || mark (e.boxOf y)) := by
  simp [AskEntry.anyMark, Bool.or_assoc]

/-- One more word in a box is its box merged into that box. -/
theorem AskEntry.groupBox_concat (e : AskEntry) (w y : Word) (l : List Word) :
    (e.groupBox (w, l)).merge (e.boxOf y) (l.length + 1 + 1) = e.groupBox (w, l ++ [y]) := by
  simp [AskEntry.groupBox, Box.merge, AskEntry.reach_concat, AskEntry.anyMark_concat]

/-! ## How the words fall into boxes (R176) -/

/-- Each word of a box after its first starts at or before the last column that those before it reach. -/
def AskEntry.Joined (e : AskEntry) (g : Word × List Word) : Prop :=
  ∀ l1 w l2, g.2 = l1 ++ w :: l2 → (e.boxOf w).first ≤ e.reach g.1 l1

theorem AskEntry.joined_single (e : AskEntry) (w : Word) : e.Joined (w, []) :=
  fun l1 _ _ h => absurd h.symm (by simp)

theorem AskEntry.Joined.concat {e : AskEntry} {w y : Word} {l : List Word} (h : e.Joined (w, l))
    (hy : (e.boxOf y).first ≤ e.reach w l) : e.Joined (w, l ++ [y]) := by
  intro l1 x l2 heq
  obtain rfl | ⟨m, z, rfl⟩ := List.eq_nil_or_concat l2
  · obtain ⟨rfl, hlast⟩ := List.append_inj' heq rfl
    obtain rfl := List.singleton_inj.1 hlast
    exact hy
  · rw [List.concat_eq_append, ← List.cons_append, ← List.append_assoc] at heq
    exact h l1 x m (List.append_inj' heq rfl).1

/-- The words of a reply as those of its boxes and those left over: at most `room` boxes, and words left over only
where the boxes are that many; the words of a box joined one by one, and the first of each next box, or left over,
starts after all that the box before it reaches. -/
structure AskEntry.Boxed (e : AskEntry) (room : Nat) (ws : List Word) (groups : List (Word × List Word))
    (rest : List Word) : Prop where
  spells : (groups.flatMap fun g => g.1 :: g.2) ++ rest = ws
  count : groups.length ≤ room
  full : rest ≠ [] → groups.length = room
  joined : ∀ g ∈ groups, e.Joined g
  apart : Neighbours (fun g h => e.reach g.1 g.2 < (e.boxOf h.1).first) groups
  restApart : ∀ g ∈ groups.getLast?, ∀ w ∈ rest.head?, e.reach g.1 g.2 < (e.boxOf w).first

namespace AskEntry.Boxed

variable {e : AskEntry} {room : Nat} {g h : Word × List Word} {ws rest : List Word} {groups : List (Word × List Word)}

/-- The last box, with no word left over or with no room for one more box. -/
theorem single (hg : e.Joined g) (hroom : 1 ≤ room) (hfull : rest ≠ [] → 1 = room)
    (hrest : ∀ w ∈ rest.head?, e.reach g.1 g.2 < (e.boxOf w).first) :
    e.Boxed room (g.1 :: g.2 ++ rest) [g] rest where
  spells := by simp
  count := hroom
  full := hfull
  joined := by simpa using hg
  apart := neighbours_singleton g
  restApart := by simpa using hrest

/-- A box before others. -/
theorem cons (hrest : e.Boxed room ws (h :: groups) rest) (hg : e.Joined g)
    (hapart : e.reach g.1 g.2 < (e.boxOf h.1).first) :
    e.Boxed (room + 1) (g.1 :: g.2 ++ ws) (g :: h :: groups) rest where
  spells := by rw [← hrest.spells]; simp
  count := Nat.succ_le_succ hrest.count
  full := fun hne => congrArg Nat.succ (hrest.full hne)
  joined := List.forall_mem_cons.2 ⟨hg, hrest.joined⟩
  apart := neighbours_cons.2 ⟨fun _ hb => Option.some_inj.1 hb ▸ hapart, hrest.apart⟩
  restApart := by rw [List.getLast?_cons_cons]; exact hrest.restApart

/-- The boxes of the words so boxed: one for each group, and a MORE box for those left over. -/
theorem neighbours_boxes (hboxed : e.Boxed room ws groups rest) :
    Neighbours (fun a b => a.last < b.first) (groups.map e.groupBox ++ e.moreBoxes rest) := by
  refine Neighbours.append (Neighbours.map (f := e.groupBox) hboxed.apart) ?more ?between
  case more =>
    cases rest with
    | nil => exact neighbours_nil
    | cons w l => exact neighbours_singleton _
  case between =>
    intro a ha b hb
    rw [List.getLast?_map] at ha
    obtain ⟨g, hg, rfl⟩ := Option.map_eq_some_iff.1 ha
    cases rest with
    | nil => cases hb
    | cons w l =>
      obtain rfl := Option.some_inj.1 hb
      exact hboxed.restApart g hg w rfl

theorem length_boxes (hboxed : e.Boxed room ws groups rest) :
    (groups.map e.groupBox ++ e.moreBoxes rest).length ≤ room + 1 := by
  have hcount := hboxed.count
  cases rest <;> simp only [AskEntry.moreBoxes, List.length_append, List.length_map, List.length_nil,
    List.length_singleton] <;> omega

end AskEntry.Boxed

/-- Words that come while the box of `g` is the newest: they join it or start others, as the rule says, and what is
built is the box of each group and the MORE box. -/
theorem AskEntry.build_boxed (e : AskEntry) (l : List Word) :
    ∀ (done : List Box) (room : Nat) (g : Word × List Word), done.length + room = 47 → 1 ≤ room → e.Joined g →
      ∃ h groups rest, h.1 = g.1 ∧ e.Boxed room (g.1 :: g.2 ++ l) (h :: groups) rest ∧
        e.build done (e.groupBox g) (g.2.length + 1) l =
          done.reverse ++ ((h :: groups).map e.groupBox ++ e.moreBoxes rest) := by
  induction l with
  | nil =>
    intro done room g _ hroom hg
    refine ⟨g, [], [], rfl, .single hg hroom (fun hne => absurd rfl hne) (by simp), ?_⟩
    simp [AskEntry.build, AskEntry.moreBoxes]
  | cons w l ih =>
    intro done room g hdone hroom hg
    rw [AskEntry.build]
    split
    · rename_i hjoins
      obtain ⟨h, groups, rest, hh, hboxed, hbuild⟩ := ih done room (g.1, g.2 ++ [w]) hdone hroom (hg.concat hjoins)
      rw [List.length_append, List.length_singleton, ← AskEntry.groupBox_concat] at hbuild
      exact ⟨h, groups, rest, hh, by simpa using hboxed, hbuild⟩
    · rename_i hopens
      have hapart : e.reach g.1 g.2 < (e.boxOf w).first := Nat.lt_of_not_le hopens
      split
      · rename_i hfull
        refine ⟨g, [], w :: l, rfl, .single hg hroom (fun _ => by omega) (by simpa using hapart), ?_⟩
        simp [AskEntry.moreBoxes]
      · obtain ⟨room, rfl⟩ : ∃ n, room = n + 1 := ⟨room - 1, by omega⟩
        obtain ⟨h, groups, rest, hh, hboxed, hbuild⟩ :=
          ih (e.groupBox g :: done) room (w, []) (by rw [List.length_cons]; omega) (by omega) (e.joined_single w)
        rw [AskEntry.groupBox_single] at hbuild
        refine ⟨g, h :: groups, rest, rfl, ?_, ?_⟩
        · exact hboxed.cons hg (hh ▸ hapart)
        · simpa using hbuild

/-- The words in the window of a WORDS entry fall into its boxes so. -/
theorem State.askBoxes_boxed (s : State) (e : AskEntry) (seg : Fin 8) (dec : Fin 4) :
    ∃ groups rest, e.Boxed 47 ((s.askedWords seg dec).filter fun w => !e.skips w) groups rest ∧
      s.askBoxes e seg dec = groups.map e.groupBox ++ e.moreBoxes rest := by
  unfold State.askBoxes
  cases (s.askedWords seg dec).filter fun w => !e.skips w with
  | nil => exact ⟨[], [], ⟨rfl, Nat.zero_le _, fun hne => absurd rfl hne, by simp, neighbours_nil, by simp⟩, rfl⟩
  | cons w l =>
    obtain ⟨h, groups, rest, -, hboxed, hbuild⟩ :=
      e.build_boxed l [] 47 (w, []) rfl (by omega) (e.joined_single w)
    rw [AskEntry.groupBox_single] at hbuild
    exact ⟨_, rest, hboxed, hbuild⟩

theorem State.length_askBoxes (s : State) (e : AskEntry) (seg : Fin 8) (dec : Fin 4) :
    (s.askBoxes e seg dec).length ≤ 48 := by
  obtain ⟨groups, rest, hboxed, hboxes⟩ := s.askBoxes_boxed e seg dec
  exact hboxes ▸ hboxed.length_boxes

theorem State.neighbours_askBoxes (s : State) (e : AskEntry) (seg : Fin 8) (dec : Fin 4) :
    Neighbours (fun a b => a.last < b.first) (s.askBoxes e seg dec) := by
  obtain ⟨groups, rest, hboxed, hboxes⟩ := s.askBoxes_boxed e seg dec
  exact hboxes ▸ hboxed.neighbours_boxes

end Sys2Proof.Machine
end

section
/-! PROOFS. About the parts of a reply (R177): how many there are and what each carries. -/

namespace Sys2Proof.Machine

/-! ## A list cut into parts (R177) -/

section
variable {α : Type}

/-- The cut of runs and of boxes alike: `n` items to a part, `mk` makes a part from its index, its first column, its
last-part mark and its items, and `next` says the first column of the part after it. -/
def cutParts (n : Nat) (mk : Nat → Nat → Bool → List α → Part) (next : Nat → List α → Nat) :
    (fuel : Nat) → (index first : Nat) → List α → List Part
  | 0, _, _, _ => []
  | fuel + 1, i, c, l =>
    mk i c (l.drop n).isEmpty (l.take n) ::
      if (l.drop n).isEmpty then [] else cutParts n mk next fuel (i + 1) (next c (l.take n)) (l.drop n)

/-- The first column of part `i` of a list so cut. -/
def cutFirst (n : Nat) (next : Nat → List α → Nat) : (first : Nat) → List α → Nat → Nat
  | c, _, 0 => c
  | c, l, i + 1 => cutFirst n next (next c (l.take n)) (l.drop n) i

variable {n : Nat} {mk : Nat → Nat → Bool → List α → Part} {next : Nat → List α → Nat}

/-- There is always a first part, and a later one as long as items are left for it. -/
theorem lt_length_cutParts {fuel : Nat} (hfuel : 1 ≤ fuel) {index first : Nat} {l : List α}
    (hl : l.length ≤ n * fuel) (j : Nat) :
    j < (cutParts n mk next fuel index first l).length ↔ j = 0 ∨ n * j < l.length := by
  induction fuel generalizing index first l j with
  | zero => omega
  | succ fuel ih =>
    rw [cutParts, List.length_cons]
    rw [Nat.mul_succ] at hl
    split
    · rename_i hend
      rw [List.isEmpty_iff, List.drop_eq_nil_iff] at hend
      cases j with
      | zero => simp
      | succ j => simp only [List.length_nil, Nat.mul_succ]; omega
    · rename_i hmore
      rw [List.isEmpty_iff, List.drop_eq_nil_iff] at hmore
      cases j with
      | zero => simp
      | succ j =>
        have hfuel : 1 ≤ fuel := by
          cases fuel with
          | zero => omega
          | succ fuel => omega
        rw [Nat.add_lt_add_iff_right, ih hfuel (by rw [List.length_drop]; omega), List.length_drop, Nat.mul_succ]
        cases j <;> simp only [Nat.mul_succ, Nat.mul_zero] <;> omega

theorem getElem?_cutParts {fuel index first : Nat} {l : List α} {i : Nat} {p : Part}
    (hp : (cutParts n mk next fuel index first l)[i]? = some p) :
    p = mk (index + i) (cutFirst n next first l i) (decide (l.length ≤ n * (i + 1))) ((l.drop (n * i)).take n) := by
  induction fuel generalizing index first l i with
  | zero => simp [cutParts] at hp
  | succ fuel ih =>
    rw [cutParts] at hp
    cases i with
    | zero =>
      obtain rfl : _ = p := by simpa using hp
      have hlast : (l.drop n).isEmpty = decide (l.length ≤ n) := by
        rw [Bool.eq_iff_iff, List.isEmpty_iff, List.drop_eq_nil_iff, decide_eq_true_iff]
      simp [cutFirst, hlast]
    | succ i =>
      rw [List.getElem?_cons_succ] at hp
      split at hp
      · simp at hp
      · rw [ih hp, List.length_drop, List.drop_drop, cutFirst, Nat.mul_succ, Nat.mul_succ n (i + 1),
          Nat.add_comm n (n * i), Nat.add_assoc index 1 i, Nat.add_comm 1 i]
        congr 1
        exact decide_eq_decide.2 Nat.sub_le_iff_le_add

end

/-! ## Runs (R177) -/

/-- A part of a RUNS reply. -/
def runPart (tag : Byte) (absent : Bool) (index first : Nat) (last : Bool) (runs : List Run) : Part :=
  { tag := tag, outcome := .ok, index := index, first := first, last := last, absent := absent, data := .runs runs }

/-- The column after some runs. -/
def columnAfterRuns (first : Nat) (runs : List Run) : Nat := first + (runs.map (·.length)).sum

theorem runParts_eq (tag : Byte) (absent : Bool) (fuel index first : Nat) (l : List Run) :
    runParts tag absent fuel index first l =
      cutParts 27 (runPart tag absent) columnAfterRuns fuel index first l := by
  induction fuel generalizing index first l with
  | zero => rfl
  | succ fuel ih => rw [runParts, cutParts, ih]; rfl

theorem cutFirst_runs (c : Nat) (l : List Run) (i : Nat) :
    cutFirst 27 columnAfterRuns c l i = c + ((l.take (27 * i)).map (·.length)).sum := by
  induction i generalizing c l with
  | zero => simp [cutFirst]
  | succ i ih =>
    rw [cutFirst, ih, columnAfterRuns, Nat.mul_succ, Nat.add_comm (27 * i) 27, List.take_add, List.map_append,
      List.sum_append, Nat.add_assoc]

/-! ## Boxes (R177) -/

/-- A part of a BOXES reply. -/
def boxPart (tag : Byte) (index first : Nat) (last : Bool) (boxes : List Box) : Part :=
  { tag := tag, outcome := .ok, index := index, first := first, last := last, absent := false, data := .boxes boxes }

/-- The column after some boxes. -/
def columnAfterBoxes (_ : Nat) (boxes : List Box) : Nat :=
  (match boxes.getLast? with | some b => b.last | none => 0) + 1

theorem boxParts_eq (tag : Byte) (fuel index first : Nat) (l : List Box) :
    boxParts tag fuel index first l = cutParts 6 (boxPart tag) columnAfterBoxes fuel index first l := by
  induction fuel generalizing index first l with
  | zero => rfl
  | succ fuel ih => rw [boxParts, cutParts, ih]; rfl

/-- The first column after some boxes of a reply, 0 before any. -/
def columnFromBoxes (first : Nat) (boxes : List Box) : Nat :=
  match boxes.getLast? with
  | some b => b.last + 1
  | none => first

theorem columnFromBoxes_append (c : Nat) (l m : List Box) :
    columnFromBoxes c (l ++ m) = columnFromBoxes (columnFromBoxes c l) m := by
  unfold columnFromBoxes
  rw [List.getLast?_append]
  cases m.getLast? <;> cases l.getLast? <;> rfl

theorem columnAfterBoxes_of_ne_nil {boxes : List Box} (h : boxes ≠ []) (c : Nat) :
    columnAfterBoxes c boxes = columnFromBoxes c boxes := by
  rw [columnAfterBoxes, columnFromBoxes, List.getLast?_eq_some_getLast h]

theorem cutFirst_boxes (c : Nat) {l : List Box} {i : Nat} (hi : i = 0 ∨ 6 * i < l.length) :
    cutFirst 6 columnAfterBoxes c l i = columnFromBoxes c (l.take (6 * i)) := by
  induction i generalizing c l with
  | zero => rfl
  | succ i ih =>
    have hlen : 6 * (i + 1) < l.length := by omega
    have hne : l.take 6 ≠ [] := List.ne_nil_of_length_pos (by rw [List.length_take]; omega)
    rw [cutFirst, ih _ (by rw [List.length_drop]; omega), Nat.mul_succ, Nat.add_comm (6 * i) 6, List.take_add,
      columnFromBoxes_append, columnAfterBoxes_of_ne_nil hne]

/-! ## The reply to an entry (R171–R177) -/

section
variable {s : State} {e : AskEntry}

/-- The columns an entry asks for, each with its class and glitch flag. -/
def State.askedColumns (s : State) (l : Layout) (e : AskEntry) : List (ColClass × Bool) :=
  let h := s.header (readStation e.seg.toNat)
  (List.range e.columns).map fun c =>
    if s.frontEnd.chanPresent (readChan e.index)
    then columnClass (s.store.records l (readStation e.seg.toNat)) h.base (h.close.getD h.base) (readChan e.index)
      (e.boundary c) (e.boundary (c + 1))
    else (.none, false)

theorem State.reduceColumns_eq {l : Layout} (hl : s.store.layout = some l) :
    s.reduceColumns e (readStation e.seg.toNat) (readChan e.index) = s.askedColumns l e := by
  rw [State.reduceColumns, hl, State.askedColumns]
  dsimp only
  split
  · rfl
  · rw [List.map_const', List.length_range]

theorem State.length_askedColumns (l : Layout) : (s.askedColumns l e).length = e.columns := by
  simp [State.askedColumns]

theorem State.computeReply_runs {l : Layout} (hl : s.store.layout = some l) (hwords : e.words = false) :
    s.computeReply e =
      cutParts 27 (runPart e.tag (!s.frontEnd.chanPresent (readChan e.index))) columnAfterRuns 12 0 0
        (packRuns (s.askedColumns l e)) := by
  rw [← runParts_eq, ← State.reduceColumns_eq hl]
  simp [State.computeReply, hwords]

theorem State.computeReply_boxes (hwords : e.words = true) :
    s.computeReply e = cutParts 6 (boxPart e.tag) columnAfterBoxes 8 0 0
      (s.askBoxes e (readStation e.seg.toNat) ⟨e.index.toNat % 4, Nat.mod_lt _ (by decide)⟩) := by
  rw [← boxParts_eq]
  simp [State.computeReply, hwords]

theorem State.length_packRuns_askedColumns {l : Layout} (h : e.columns ≤ 320) :
    (packRuns (s.askedColumns l e)).length ≤ 27 * 12 := by
  have hruns := length_packRuns_le (s.askedColumns l e)
  rw [State.length_askedColumns] at hruns
  omega

/-- The number of parts of a RUNS reply, and each of them. -/
theorem State.computeReply_runs_parts {l : Layout} (hl : s.store.layout = some l) (hwords : e.words = false)
    (hlo : 1 ≤ e.columns) (hhi : e.columns ≤ 320) {runs : List Run} (hruns : packRuns (s.askedColumns l e) = runs) :
    (s.computeReply e).length = (runs.length + 26) / 27 ∧
      ∀ (i : Nat) (p : Part), (s.computeReply e)[i]? = some p →
        p = { tag := e.tag, outcome := .ok, index := i, first := ((runs.take (27 * i)).map (·.length)).sum
              last := decide (i + 1 = (s.computeReply e).length)
              absent := !s.frontEnd.chanPresent (readChan e.index)
              data := .runs ((runs.drop (27 * i)).take 27) } := by
  have hparts := lt_length_cutParts (mk := runPart e.tag (!s.frontEnd.chanPresent (readChan e.index)))
    (next := columnAfterRuns) (fuel := 12) (by omega) (index := 0) (first := 0)
    (State.length_packRuns_askedColumns (s := s) (e := e) (l := l) hhi)
  have hreply := State.computeReply_runs (e := e) hl hwords
  rw [← hreply, hruns] at hparts
  have hsome : 0 < runs.length := by
    refine List.length_pos_iff.2 fun hnil => ?_
    have hsum := sum_length_packRuns (s.askedColumns l e)
    rw [hruns, hnil, State.length_askedColumns, List.map_nil, List.sum_nil] at hsum
    omega
  refine ⟨?_, fun i p hp => ?_⟩
  · have h0 := hparts (s.computeReply e).length
    have h1 := hparts ((s.computeReply e).length - 1)
    omega
  · have hi := (List.getElem?_eq_some_iff.1 hp).1
    have h0 := hparts i
    have h1 := hparts (i + 1)
    rw [hreply, hruns] at hp
    rw [getElem?_cutParts hp, runPart, cutFirst_runs, Nat.zero_add, Nat.zero_add]
    congr 1
    exact decide_eq_decide.2 (by omega)

/-- The number of parts of a BOXES reply, and each of them. -/
theorem State.computeReply_boxes_parts (hwords : e.words = true) {boxes : List Box}
    (hboxes : s.askBoxes e (readStation e.seg.toNat) ⟨e.index.toNat % 4, Nat.mod_lt _ (by decide)⟩ = boxes)
    (hlen : boxes.length ≤ 48) :
    (s.computeReply e).length = max 1 ((boxes.length + 5) / 6) ∧
      ∀ (i : Nat) (p : Part), (s.computeReply e)[i]? = some p →
        p = { tag := e.tag, outcome := .ok, index := i, first := columnFromBoxes 0 (boxes.take (6 * i))
              last := decide (i + 1 = (s.computeReply e).length), absent := false
              data := .boxes ((boxes.drop (6 * i)).take 6) } := by
  have hreply := State.computeReply_boxes (s := s) hwords
  rw [hboxes] at hreply
  have hparts := lt_length_cutParts (mk := boxPart e.tag) (next := columnAfterBoxes) (n := 6) (fuel := 8) (by omega)
    (index := 0) (first := 0) (l := boxes) (by omega)
  rw [← hreply] at hparts
  refine ⟨?_, fun i p hp => ?_⟩
  · have h0 := hparts (s.computeReply e).length
    have h1 := hparts ((s.computeReply e).length - 1)
    omega
  · have hi := (List.getElem?_eq_some_iff.1 hp).1
    have h0 := hparts i
    have h1 := hparts (i + 1)
    rw [hreply] at hp
    rw [getElem?_cutParts hp, boxPart, cutFirst_boxes 0 (h0.1 hi), Nat.zero_add]
    congr 1
    exact decide_eq_decide.2 (by omega)

end

end Sys2Proof.Machine
end

section
/-! PROOFS. About a reply handed whole to the view engine (R178): the parts a lane awaits, what their parts make of its
result (R191), and a pass that goes on because another lane is still to come (R192). -/

namespace Sys2Proof.Machine

/-! ## A fetch entry set twice -/

theorem vset_vset {α : Type} {n : Nat} (v : Vector α n) (i : Fin n) (a b : α) : vset (vset v i a) i b = vset v i b := by
  simp [vset]

theorem State.setFetch_setFetch (s : State) (i : Fin 16) (x y : Fetch) :
    (s.setFetch i x).setFetch i y = s.setFetch i y := by
  simp [State.setFetch, vset_vset]

/-! ## The data of parts (R191) -/

/-- The runs a part carries. -/
def Part.runs (p : Part) : List Run := match p.data with | .runs l => l | .boxes _ => []

/-- The boxes a part carries. -/
def Part.boxes (p : Part) : List Box := match p.data with | .runs _ => [] | .boxes l => l

/-- A part adds its data to a result and stops no timer: the lane stays as it is. -/
theorem Fetch.add_frame (f : Fetch) (p : Part) :
    (f.add p).tag = f.tag ∧ (f.add p).station = f.station ∧ (f.add p).decoder = f.decoder ∧
      (f.add p).state = f.state := by
  rw [Fetch.add]
  cases p.data <;> exact ⟨rfl, rfl, rfl, rfl⟩

theorem Fetch.add_result (f : Fetch) (p : Part) :
    (f.add p).nextPart = f.nextPart + 1 ∧ (f.add p).absent = (f.absent || p.absent) ∧
      (f.add p).runs = f.runs ++ p.runs ∧ (f.add p).boxes = f.boxes ++ p.boxes := by
  rw [Fetch.add, Part.runs, Part.boxes]
  cases p.data <;> simp

theorem Fetch.add_nextCol_of_runs (f : Fetch) {p : Part} (h : p.isBoxes = false) :
    (f.add p).nextCol = columnAfterRuns f.nextCol p.runs := by
  rw [Part.isBoxes] at h
  rw [Fetch.add, Part.runs]
  cases hdata : p.data with
  | runs l => rfl
  | boxes l => simp [hdata] at h

/-- What several parts add, one after the other. -/
theorem Fetch.foldl_add_result (parts : List Part) (f : Fetch) :
    let g := parts.foldl Fetch.add f
    g.decoder = f.decoder ∧ g.nextPart = f.nextPart + parts.length ∧
      g.absent = (f.absent || parts.any (·.absent)) ∧ g.runs = f.runs ++ parts.flatMap Part.runs ∧
      g.boxes = f.boxes ++ parts.flatMap Part.boxes := by
  induction parts generalizing f with
  | nil => simp
  | cons p parts ih =>
    obtain ⟨-, -, hdecoder, -⟩ := f.add_frame p
    obtain ⟨hpart, habsent, hruns, hboxes⟩ := f.add_result p
    obtain ⟨hdecoder', hpart', habsent', hruns', hboxes'⟩ := ih (f.add p)
    rw [List.foldl_cons]
    refine ⟨hdecoder'.trans hdecoder, ?_, ?_, ?_, ?_⟩
    · rw [hpart', hpart, List.length_cons]; omega
    · rw [habsent', habsent, List.any_cons, Bool.or_assoc]
    · rw [hruns', hruns, List.flatMap_cons, List.append_assoc]
    · rw [hboxes', hboxes, List.flatMap_cons, List.append_assoc]

/-! ## The parts a lane awaits (R191) -/

/-- These are the parts a lane awaits, in their order: each OK, of the lane's tag and kind, with the index and the first
column it expects after those before it, and only the last of them with the last-part mark. -/
def Fetch.Awaits (tag : Byte) : Fetch → List Part → Prop
  | _, [] => False
  | f, p :: l =>
    (p.tag = tag ∧ p.outcome = .ok ∧ p.isBoxes = f.decoder ∧ p.index = f.nextPart ∧ p.first = f.nextCol ∧
      p.last = l.isEmpty) ∧ (l = [] ∨ (f.add p).Awaits tag l)

/-- The column after the runs of all the parts a lane awaits. -/
theorem Fetch.Awaits.nextCol_of_runs {tag : Byte} (parts : List Part) :
    ∀ f : Fetch, f.Awaits tag parts → f.decoder = false →
      (parts.foldl Fetch.add f).nextCol = columnAfterRuns f.nextCol (parts.flatMap Part.runs) := by
  induction parts with
  | nil => exact fun f h => absurd h id
  | cons p parts ih =>
    rintro f ⟨⟨-, -, hkind, -⟩, hrest⟩ hdecoder
    have hfirst := f.add_nextCol_of_runs (hkind.trans hdecoder)
    obtain rfl | hrest := hrest
    · simpa using hfirst
    · rw [List.foldl_cons, ih _ hrest ((f.add_frame p).2.2.1.trans hdecoder), hfirst]
      simp [columnAfterRuns, Nat.add_assoc]

section
variable {α : Type} {n : Nat} {mk : Nat → Nat → Bool → List α → Part} {next : Nat → List α → Nat}

theorem cutParts_ne_nil {fuel : Nat} (h : 1 ≤ fuel) (index first : Nat) (l : List α) :
    cutParts n mk next fuel index first l ≠ [] := by
  obtain ⟨fuel, rfl⟩ : ∃ m, fuel = m + 1 := ⟨fuel - 1, by omega⟩
  exact List.cons_ne_nil _ _

/-- The parts of a list cut so are those a lane awaits, from the index and the column it expects. -/
theorem awaits_cutParts {tag : Byte} {dec : Bool} (hn : 1 ≤ n)
    (hmk : ∀ i c last l, (mk i c last l).tag = tag ∧ (mk i c last l).outcome = .ok ∧ (mk i c last l).isBoxes = dec ∧
      (mk i c last l).index = i ∧ (mk i c last l).first = c ∧ (mk i c last l).last = last)
    (hadd : ∀ (f : Fetch) i c last l, l ≠ [] → (f.add (mk i c last l)).nextCol = next f.nextCol l)
    (fuel : Nat) : ∀ (f : Fetch) (l : List α), 1 ≤ fuel → l.length ≤ n * fuel → f.decoder = dec →
      f.Awaits tag (cutParts n mk next fuel f.nextPart f.nextCol l) := by
  induction fuel with
  | zero => exact fun _ _ h => absurd h (by omega)
  | succ fuel ih =>
    intro f l _ hl hdec
    rw [cutParts]
    obtain ⟨htag, hok, hkind, hindex, hfirst, hlast⟩ :=
      hmk f.nextPart f.nextCol (l.drop n).isEmpty (l.take n)
    by_cases hend : (l.drop n).isEmpty = true
    · rw [if_pos hend]
      exact ⟨⟨htag, hok, hkind.trans hdec.symm, hindex, hfirst, hlast.trans hend⟩, .inl rfl⟩
    · rw [if_neg hend]
      have hmore : n < l.length := by simpa using hend
      rw [Nat.mul_succ] at hl
      have hfuel : 1 ≤ fuel := by
        cases fuel with
        | zero => omega
        | succ fuel => omega
      have hne : l.take n ≠ [] := List.ne_nil_of_length_pos (by rw [List.length_take]; omega)
      refine ⟨⟨htag, hok, hkind.trans hdec.symm, hindex, hfirst, hlast.trans ?_⟩, .inr ?_⟩
      · rw [List.isEmpty_eq_false_iff.2 (cutParts_ne_nil hfuel _ _ _), Bool.eq_false_iff.2 hend]
      · have hrest := ih (f.add (mk f.nextPart f.nextCol (l.drop n).isEmpty (l.take n))) (l.drop n) hfuel
          (by rw [List.length_drop]; omega) ((f.add_frame _).2.2.1.trans hdec)
        rwa [(f.add_result _).1, hadd f _ _ _ _ hne] at hrest

theorem flatMap_cutParts {items : Part → List α} (hmk : ∀ i c last l, items (mk i c last l) = l) (fuel : Nat) :
    ∀ (index first : Nat) (l : List α), l.length ≤ n * fuel →
      (cutParts n mk next fuel index first l).flatMap items = l := by
  induction fuel with
  | zero => exact fun _ _ l hl => (List.length_eq_zero_iff.1 (Nat.le_zero.1 hl)).symm
  | succ fuel ih =>
    intro index first l hl
    rw [Nat.mul_succ] at hl
    rw [cutParts, List.flatMap_cons, hmk]
    split
    · rename_i hend
      rw [List.isEmpty_iff, List.drop_eq_nil_iff] at hend
      rw [List.flatMap_nil, List.append_nil, List.take_of_length_le hend]
    · rw [ih _ _ _ (by rw [List.length_drop]; omega), List.take_append_drop]

end

/-! ## The reply to an own entry (R178) -/

section
variable {s : State} {e : AskEntry} {x : Fetch}

/-- The parts of a reply are those that a fresh lane of its kind awaits. -/
theorem State.computeReply_awaited {l : Layout} (hl : s.store.layout = some l) (hcolumns : e.columns ≤ 320)
    (hdecoder : x.decoder = e.words) (hpart : x.nextPart = 0) (hcol : x.nextCol = 0) :
    x.Awaits e.tag (s.computeReply e) := by
  cases hwords : e.words with
  | false =>
    have h := awaits_cutParts (mk := runPart e.tag (!s.frontEnd.chanPresent (readChan e.index)))
      (next := columnAfterRuns) (n := 27) (by omega) (fun _ _ _ _ => ⟨rfl, rfl, rfl, rfl, rfl, rfl⟩)
      (fun _ _ _ _ _ _ => rfl) 12 x _ (by omega) (State.length_packRuns_askedColumns (s := s) (l := l) hcolumns)
      (hdecoder.trans hwords)
    rwa [hpart, hcol, ← State.computeReply_runs hl hwords] at h
  | true =>
    have h := awaits_cutParts (mk := boxPart e.tag) (next := columnAfterBoxes) (n := 6) (by omega)
      (fun _ _ _ _ => ⟨rfl, rfl, rfl, rfl, rfl, rfl⟩)
      (fun f _ _ _ l hne => (columnAfterBoxes_of_ne_nil hne f.nextCol).symm) 8 x _ (by omega)
      (s.length_askBoxes e (readStation e.seg.toNat) ⟨e.index.toNat % 4, Nat.mod_lt _ (by decide)⟩)
      (hdecoder.trans hwords)
    rwa [hpart, hcol, ← State.computeReply_boxes hwords] at h

/-- The runs of a reply cover the columns asked for. -/
theorem State.sum_length_computeReply_runs {l : Layout} (hl : s.store.layout = some l) (hwords : e.words = false)
    (hcolumns : e.columns ≤ 320) :
    (((s.computeReply e).flatMap Part.runs).map (·.length)).sum = e.columns := by
  rw [State.computeReply_runs hl hwords,
    flatMap_cutParts (items := Part.runs) (fun _ _ _ _ => rfl) 12 0 0 _ (State.length_packRuns_askedColumns hcolumns),
    sum_length_packRuns, State.length_askedColumns]

theorem Fetch.finish_of_complete (h : x.decoder = true ∨ x.nextCol = 280) :
    x.finish = { x with state := .done, deadline := none, reaskAt := none } := if_pos h

/-- A fresh lane that has taken the whole reply to its entry is DONE with the data of every part. -/
theorem State.computeReply_finishes {l : Layout} (hl : s.store.layout = some l) (hcolumns : e.columns = 280)
    (hdecoder : x.decoder = e.words) (hpart : x.nextPart = 0) (hcol : x.nextCol = 0) :
    ((s.computeReply e).foldl Fetch.add x).finish =
      { (s.computeReply e).foldl Fetch.add x with state := .done, deadline := none, reaskAt := none } := by
  refine Fetch.finish_of_complete ?_
  have hawaits := State.computeReply_awaited hl (by omega) hdecoder hpart hcol
  cases hwords : e.words with
  | true => exact .inl (((Fetch.foldl_add_result _ x).1.trans hdecoder).trans hwords)
  | false =>
    rw [hawaits.nextCol_of_runs _ _ (hdecoder.trans hwords), columnAfterRuns, hcol,
      State.sum_length_computeReply_runs hl hwords (by omega), hcolumns]
    exact .inr rfl

end

/-! ## A part taken by its lane while the pass goes on (R191, R192) -/

/-- A lane of the pass is still to come, so that the pass is not over. -/
def State.LaneToCome (s : State) (j : Fin 16) : Prop :=
  ∃ p y, s.view.pass = some p ∧ p.zero.isSome = true ∧ (vget p.lanes j).used = true ∧
    vget s.view.fetch j = some y ∧ (y.state = .waiting ∨ y.state = .pending)

theorem State.LaneToCome.setFetch {s : State} {i j : Fin 16} (h : s.LaneToCome j) (hij : i ≠ j) (x : Fetch) :
    (s.setFetch i x).LaneToCome j := by
  obtain ⟨p, y, hpass, hzero, hused, hy, hstate⟩ := h
  exact ⟨p, y, hpass, hzero, hused, (State.fetch_setFetch_other s x hij.symm).trans hy, hstate⟩

theorem State.checkPass_of_laneToCome {s : State} {j : Fin 16} (h : s.LaneToCome j) : s.checkPass = s := by
  obtain ⟨p, y, hpass, hzero, hused, hy, hstate⟩ := h
  have hlane : s.laneOver p j = false := by
    obtain hstate | hstate := hstate <;> simp [State.laneOver, hused, hy, hstate]
  have hover : s.passOver p = false := by
    rw [State.passOver, Option.isNone_eq_false_iff.2 hzero, Bool.false_or]
    exact List.all_eq_false.2 ⟨j, List.mem_finRange j, by simp [hlane]⟩
  simp [State.checkPass, hpass, hover]

section
variable {s : State} {i j : Fin 16} {x : Fetch}

theorem State.pendingLane_laneTag (hx : vget s.view.fetch i = some x) (hpending : x.state = .pending) :
    s.pendingLane (laneTag s.view.generation i) = some (i, x) := by
  have hg := s.view.generation.isLt
  have htag : (laneTag s.view.generation i).toNat = s.view.generation.toNat * 16 + i.val := by
    rw [laneTag, BitVec.toNat_ofNat]
    omega
  have hlane : (⟨(laneTag s.view.generation i).toNat % 16, Nat.mod_lt _ (by decide)⟩ : Fin 16) = i :=
    Fin.ext (by simp only [htag]; omega)
  simp only [State.pendingLane, hlane, hx, hpending]
  rw [if_pos (by omega)]
  rfl

theorem State.takePart_of_pending (hx : vget s.view.fetch i = some x) (hpending : x.state = .pending)
    (hlocal : x.station = s.bus.own) (hj : s.LaneToCome j) (hij : i ≠ j) {p : Part}
    (htag : p.tag = laneTag s.view.generation i) (hkind : p.isBoxes = x.decoder) :
    s.takePart s.bus.own p = s.setFetch i (x.take p s.time) := by
  rw [State.takePart, htag, State.pendingLane_laneTag hx hpending]
  dsimp only
  rw [if_pos ⟨hlocal, hkind.symm⟩]
  exact State.checkPass_of_laneToCome (hj.setFetch hij _)

theorem Fetch.take_of_expected {p : Part} (hok : p.outcome = .ok) (hindex : p.index = x.nextPart)
    (hfirst : p.first = x.nextCol) (now : StationTime) :
    x.take p now = if p.last then (x.add p).finish else x.add p := by
  simp [Fetch.take, hok, hindex, hfirst]

end

/-- The parts a PENDING local lane awaits, handed to the view engine one after the other: the lane adds them all and is
over with the last. -/
theorem State.foldl_takePart_awaited {i j : Fin 16} (hij : i ≠ j) (parts : List Part) :
    ∀ (s : State) (x : Fetch), vget s.view.fetch i = some x → x.state = .pending → x.station = s.bus.own →
      s.LaneToCome j → x.Awaits (laneTag s.view.generation i) parts →
      parts.foldl (fun s p => s.takePart s.bus.own p) s = s.setFetch i (parts.foldl Fetch.add x).finish := by
  induction parts with
  | nil => exact fun _ _ _ _ _ _ h => absurd h id
  | cons p parts ih =>
    rintro s x hx hpending hlocal hj ⟨⟨htag, hok, hkind, hindex, hfirst, hlast⟩, hrest⟩
    rw [List.foldl_cons, State.takePart_of_pending hx hpending hlocal hj hij htag hkind,
      Fetch.take_of_expected hok hindex hfirst, hlast]
    cases parts with
    | nil => rfl
    | cons q parts =>
      obtain ⟨-, hstation, -, hstate⟩ := x.add_frame p
      have hrest : (x.add p).Awaits (laneTag s.view.generation i) (q :: parts) := hrest.resolve_left (by simp)
      have htail := ih (s.setFetch i (x.add p)) (x.add p) (State.fetch_setFetch_same ..) (hstate.trans hpending)
        (hstation.trans hlocal) (hj.setFetch hij _) hrest
      rwa [State.setFetch_setFetch] at htail

end Sys2Proof.Machine
end

section
/-! PROOFS. About the reduction engine taking an entry into service (R171): its checks, the entry refused or served, an
own entry handed to the view engine (R178), and the place it frees (R170, R189). -/

namespace Sys2Proof.Machine

/-! ## A place freed (R189) -/

theorem State.offerOwn_of_no_pass {s : State} (h : s.view.pass = none) (n : Fin 16) : s.offerOwn n = s := by
  simp [State.offerOwn, h]

/-- A lane that is not a local one waiting for a place. -/
def State.LaneRests (s : State) (n : Fin 16) : Prop :=
  ∀ z, vget s.view.fetch n = some z → z.station = s.bus.own → z.state ≠ .waiting

theorem State.offerOwn_of_rests {s : State} {n : Fin 16} (h : s.LaneRests n) : s.offerOwn n = s := by
  unfold State.offerOwn
  split
  · rename_i p f _ hf
    cases p.zero with
    | none => rfl
    | some z => exact if_neg fun ⟨hwaiting, hlocal, _⟩ => h f hf hlocal hwaiting
  · rfl

/-- A waiting local lane takes a place where the table has one for it. -/
theorem State.offerOwn_of_waiting {s : State} {n : Fin 16} {p : Pass} {z : StationTime} {x : Fetch}
    (hpass : s.view.pass = some p) (hzero : p.zero = some z) (hx : vget s.view.fetch n = some x)
    (hwaiting : x.state = .waiting) (hlocal : x.station = s.bus.own) (hplace : s.asks.takesOwn = true) :
    s.offerOwn n =
      (s.appendEntry (ownEntry s.order s.bus.own p (vget p.lanes n) x.tag (p.viewStart z))).setFetch n
        { x with state := .pending } := by
  simp only [State.offerOwn, hpass, hx, hzero]
  rw [if_pos ⟨hwaiting, hlocal, hplace⟩]
  rfl

theorem State.foldl_offerOwn_of_fixed {s : State} {l : List (Fin 16)} (h : ∀ n ∈ l, s.offerOwn n = s) :
    l.foldl State.offerOwn s = s := by
  induction l with
  | nil => rfl
  | cons n l ih =>
    obtain ⟨hn, hl⟩ := List.forall_mem_cons.1 h
    rw [List.foldl_cons, hn, ih hl]

/-- A freed place changes nothing where no local lane waits for it. -/
theorem State.placeFreed_of_rests {s : State} (h : s.view.pass = none ∨ ∀ n, s.LaneRests n) : s.placeFreed = s :=
  State.foldl_offerOwn_of_fixed fun n _ =>
    h.elim (fun hpass => State.offerOwn_of_no_pass hpass n) fun hrests => State.offerOwn_of_rests (hrests n)

theorem State.LaneRests.of_eq {s t : State} {n : Fin 16} (h : s.LaneRests n)
    (hfetch : vget t.view.fetch n = vget s.view.fetch n) (hown : t.bus.own = s.bus.own) : t.LaneRests n :=
  fun z hz hlocal => h z (hfetch.symm.trans hz) (hlocal.trans hown)

/-- A freed place goes to the one local lane that waits. -/
theorem State.placeFreed_of_one_waiting {s : State} {n : Fin 16} (h : ∀ m, m ≠ n → s.LaneRests m)
    (hfetch : ∀ m, m ≠ n → vget (s.offerOwn n).view.fetch m = vget s.view.fetch m) : s.placeFreed = s.offerOwn n := by
  obtain ⟨l, r, hsplit⟩ := List.append_of_mem (List.mem_finRange n)
  have hnodup := List.nodup_finRange 16
  rw [hsplit, List.nodup_append, List.nodup_cons] at hnodup
  obtain ⟨-, ⟨hr, -⟩, hapart⟩ := hnodup
  have hl : n ∉ l := fun hn => hapart n hn n List.mem_cons_self rfl
  have hne {m : Fin 16} {k : List (Fin 16)} (hk : n ∉ k) (hm : m ∈ k) : m ≠ n := fun heq => hk (heq ▸ hm)
  rw [State.placeFreed, hsplit, List.foldl_append, List.foldl_cons,
    State.foldl_offerOwn_of_fixed fun m hm => State.offerOwn_of_rests (h m (hne hl hm))]
  exact State.foldl_offerOwn_of_fixed fun m hm => State.offerOwn_of_rests
    ((h m (hne hr hm)).of_eq (hfetch m (hne hr hm)) (by simp))

/-! ## The oldest WAITING entry and its checks (R171) -/

section
variable {s : State} {e : AskEntry} {r : List AskEntry}

/-- The engine is free, and this entry is the oldest that waits. -/
theorem exec_askServiceStart_of_oldest (htable : s.asks.table = e :: r)
    (hfree : ∀ x ∈ e :: r, x.serving = false) : exec .askServiceStart s = .next (s.startService e) := by
  have hbusy : s.asks.engineBusy = false := by
    simp only [AskService.engineBusy, htable, List.any_eq_false, Bool.not_eq_true]
    exact hfree
  have holdest : s.asks.oldestWaiting = some e := by
    rw [AskService.oldestWaiting, htable]
    exact List.find?_cons_of_pos (by simp [hfree e List.mem_cons_self])
  refine congrArg Host.Outcome.next ?_
  rw [if_pos (by simp [State.serviceDue, hbusy, holdest]), holdest]

/-- The state of the segment an entry asks about. -/
def State.askedState (s : State) (e : AskEntry) : SegState := (s.header (readStation e.seg.toNat)).state

/-- No RANGE check fails (R171). -/
def State.AskFits (s : State) (p : Plan) (e : AskEntry) : Prop :=
  e.seg.toNat < 2 ^ p.general.segCode.toNat ∧ e.index.toNat < (if e.words then 4 else 16) ∧ 1 ≤ e.columns ∧
    e.columns ≤ 320 ∧ s.askedState e ≠ .empty

theorem State.askCheck_of_idle (h : s.session.state = .idle) : s.askCheck e = some .noSession := if_pos h

section
variable {p : Plan} (hstate : s.session.state ≠ .idle) (hplan : s.session.active = some p)
include hstate hplan

/-- The checks in a session, in their order. -/
theorem State.askCheck_of_session :
    s.askCheck e =
      if 2 ^ p.general.segCode.toNat ≤ e.seg.toNat then some .range
      else if (if e.words then 4 else 16) ≤ e.index.toNat then some .range
      else if e.columns < 1 ∨ 320 < e.columns then some .range
      else
        match s.askedState e with
        | .empty => some .range
        | .filling | .post => some .live
        | .complete | .cut => none := by
  rw [State.askCheck, if_neg hstate, hplan]
  rfl

theorem State.askCheck_of_not_fits (h : ¬ s.AskFits p e) : s.askCheck e = some .range := by
  rw [State.askCheck_of_session hstate hplan]
  by_cases hseg : 2 ^ p.general.segCode.toNat ≤ e.seg.toNat
  · exact if_pos hseg
  rw [if_neg hseg]
  by_cases hindex : (if e.words then 4 else 16) ≤ e.index.toNat
  · exact if_pos hindex
  rw [if_neg hindex]
  by_cases hcolumns : e.columns < 1 ∨ 320 < e.columns
  · exact if_pos hcolumns
  have hempty : s.askedState e = .empty := Decidable.byContradiction fun hne =>
    h ⟨Nat.lt_of_not_le hseg, Nat.lt_of_not_le hindex, by omega, by omega, hne⟩
  rw [if_neg hcolumns, hempty]

theorem State.askCheck_of_fits (h : s.AskFits p e) :
    s.askCheck e =
      match s.askedState e with
      | .empty => some .range
      | .filling | .post => some .live
      | .complete | .cut => none := by
  obtain ⟨hseg, hindex, hlo, hhi, -⟩ := h
  rw [State.askCheck_of_session hstate hplan, if_neg (by omega), if_neg (by omega), if_neg (by omega)]

theorem State.askCheck_of_live (h : s.AskFits p e) (hlive : s.askedState e = .filling ∨ s.askedState e = .post) :
    s.askCheck e = some .live := by
  rw [State.askCheck_of_fits hstate hplan h]
  obtain hlive | hlive := hlive <;> rw [hlive]

theorem State.askCheck_of_closed (h : s.AskFits p e)
    (hclosed : s.askedState e = .complete ∨ s.askedState e = .cut) : s.askCheck e = none := by
  rw [State.askCheck_of_fits hstate hplan h]
  obtain hclosed | hclosed := hclosed <;> rw [hclosed]

end

/-! ## An entry from the bus (R171, R177) -/

/-- The state after an entry from the bus was refused with an outcome, before its place is handed on. -/
def State.refused (s : State) (e : AskEntry) (r : List AskEntry) (o : OutcomeCode) : State :=
  { s with
    asks := { s.asks with
      table := r
      refusals := s.asks.refusals ++
        [{ asker := e.asker, tag := e.tag, busy := false
           held := { since := s.order, origin := .askRefusal
                     frame := (emptyPart e.tag e.words o 0 0).frame e.asker } }] }
    order := s.order + 1 }

theorem State.removeEntry_oldest (htable : s.asks.table = e :: r) (hids : ∀ x ∈ r, x.id ≠ e.id) :
    s.removeEntry e.id = { s with asks := { s.asks with table := r } } := by
  rw [State.removeEntry, htable, show e :: r = [] ++ e :: r from rfl, filter_id_ne_of_split (by simpa using hids)]
  rfl

theorem State.startService_refused {o : OutcomeCode} (htable : s.asks.table = e :: r) (hids : ∀ x ∈ r, x.id ≠ e.id)
    (hbus : e.own = false) (hcheck : s.askCheck e = some o) :
    s.startService e = (s.refused e r o).placeFreed := by
  have hremoved : (s.refuse e false o).removeEntry e.id = s.refused e r o :=
    State.removeEntry_oldest (s := s.refuse e false o) htable hids
  simp only [State.startService, hcheck, hbus, ← hremoved]
  rfl

theorem State.startService_served (htable : s.asks.table = e :: r) (hids : ∀ x ∈ r, x.id ≠ e.id)
    (hbus : e.own = false) (hcheck : s.askCheck e = none) :
    s.startService e =
      { s with
        asks := { s.asks with
          table := { e with serving := true, parts := s.computeReply e, readySince := s.order } :: r }
        order := s.order + 1 } := by
  simp only [State.startService, hcheck]
  rw [if_neg (by simp [hbus]), State.serve, htable, show e :: r = [] ++ e :: r from rfl,
    map_id_eq_of_split (by simpa using hids)]
  rfl

/-! ## An own entry (R178) -/

/-- An own entry whose reply its lane has taken leaves the table; where no local lane waits, nothing else follows. -/
theorem State.handOwn_of_taken {parts : List Part} {i : Fin 16} {z : Fetch} (htable : s.asks.table = e :: r)
    (hids : ∀ x ∈ r, x.id ≠ e.id)
    (htaken : parts.foldl (fun s p => s.takePart s.bus.own p) s = s.setFetch i z) (hz : z.state ≠ .waiting)
    (hrests : ∀ n, s.LaneRests n) :
    s.handOwn e parts =
      { s with
        asks := { s.asks with table := r }
        view := { s.view with fetch := vset s.view.fetch i (some z) } } := by
  rw [State.handOwn, htaken, State.removeEntry_oldest (s := s.setFetch i z) htable hids]
  refine State.placeFreed_of_rests (.inr fun n => ?_)
  by_cases hn : n = i
  · intro y hy _
    rw [hn] at hy
    obtain rfl : z = y := Option.some_inj.1 ((State.fetch_setFetch_same s i z).symm.trans hy)
    exact hz
  · exact (hrests n).of_eq (State.fetch_setFetch_other s z hn) rfl

/-- A fresh PENDING local lane and the own entry it asked, the oldest of the table and the only one to wait for the
engine's reply, while lane `j` is still to come. -/
structure State.AsksOwn (s : State) (e : AskEntry) (r : List AskEntry) (i j : Fin 16) (x : Fetch) : Prop where
  table : s.asks.table = e :: r
  ids : ∀ y ∈ r, y.id ≠ e.id
  own : e.own = true
  tag : e.tag = laneTag s.view.generation i
  fetch : vget s.view.fetch i = some x
  pending : x.state = .pending
  station : x.station = s.bus.own
  decoder : x.decoder = e.words
  ne : i ≠ j
  toCome : s.LaneToCome j
  rests : ∀ n, s.LaneRests n

variable {i j : Fin 16} {x : Fetch}

/-- The state after an own entry left the table and its lane became `z`. -/
def State.ownTaken (s : State) (r : List AskEntry) (i : Fin 16) (z : Fetch) : State :=
  { s with asks := { s.asks with table := r }, view := { s.view with fetch := vset s.view.fetch i (some z) } }

theorem emptyPart_isBoxes (tag : Byte) (words : Bool) (o : OutcomeCode) (i c : Nat) :
    (emptyPart tag words o i c).isBoxes = words := by
  cases words <;> rfl

theorem State.AsksOwn.startService_refused (h : s.AsksOwn e r i j x) {o : OutcomeCode} {b : Banner}
    (hcheck : s.askCheck e = some o) (htake : x.take (emptyPart e.tag e.words o 0 0) s.time = x.fail b) :
    s.startService e = s.ownTaken r i (x.fail b) := by
  have htaken := State.takePart_of_pending h.fetch h.pending h.station h.toCome h.ne
    (p := emptyPart e.tag e.words o 0 0) h.tag ((emptyPart_isBoxes ..).trans h.decoder.symm)
  rw [htake] at htaken
  rw [State.startService, hcheck]
  exact (if_pos h.own).trans (State.handOwn_of_taken h.table h.ids htaken (by simp [Fetch.fail]) h.rests)

theorem State.AsksOwn.startService_replied (h : s.AsksOwn e r i j x) {l : Layout} (hl : s.store.layout = some l)
    (hcolumns : e.columns = 280) (hpart : x.nextPart = 0) (hcol : x.nextCol = 0) (hcheck : s.askCheck e = none) :
    s.startService e =
      s.ownTaken r i
        { (s.computeReply e).foldl Fetch.add x with state := .done, deadline := none, reaskAt := none } := by
  have hawaits := State.computeReply_awaited hl (by omega) h.decoder hpart hcol
  have htaken := State.foldl_takePart_awaited h.ne _ s x h.fetch h.pending h.station h.toCome (h.tag ▸ hawaits)
  rw [State.computeReply_finishes hl hcolumns h.decoder hpart hcol] at htaken
  rw [State.startService, hcheck]
  exact (if_pos h.own).trans (State.handOwn_of_taken h.table h.ids htaken (by simp) h.rests)

end

end Sys2Proof.Machine
end

section
/-! PROOFS. The reduction engine at work (R170–R178): the parts of O54, and O54 itself. -/

namespace Sys2Proof.Machine

section
variable {s : State} {e : AskEntry} {r : List AskEntry} {p : Plan}

/-- The segment of an entry that fits is one that is being recorded or one that is closed. -/
theorem State.AskFits.live_or_closed (h : s.AskFits p e) :
    (s.askedState e = .filling ∨ s.askedState e = .post) ∨ s.askedState e = .complete ∨ s.askedState e = .cut := by
  obtain ⟨-, -, -, -, hne⟩ := h
  cases hstate : s.askedState e <;> simp_all

/-- An entry from the bus, where no local lane waits for a place: refused, or served. -/
theorem State.startService_of_bus (htable : s.asks.table = e :: r) (hids : ∀ x ∈ r, x.id ≠ e.id)
    (hbus : e.own = false) (hrests : s.view.pass = none ∨ ∀ n, s.LaneRests n) :
    s.startService e =
      match s.askCheck e with
      | some o => s.refused e r o
      | none => { s with
          asks := { s.asks with
            table := { e with serving := true, parts := s.computeReply e, readySince := s.order } :: r }
          order := s.order + 1 } := by
  cases hcheck : s.askCheck e with
  | none => exact State.startService_served htable hids hbus hcheck
  | some o =>
    rw [State.startService_refused htable hids hbus hcheck]
    exact State.placeFreed_of_rests hrests

/-- An entry refused in IDLE frees its place for the one local lane that waits (R170, R189). -/
theorem State.startService_frees_place {pass : Pass} {z : StationTime} {n : Fin 16} {x : Fetch}
    (htable : s.asks.table = e :: r) (hids : ∀ y ∈ r, y.id ≠ e.id) (hbus : e.own = false)
    (hidle : s.session.state = .idle) (hpass : s.view.pass = some pass) (hzero : pass.zero = some z)
    (hx : vget s.view.fetch n = some x) (hwaiting : x.state = .waiting) (hlocal : x.station = s.bus.own)
    (hothers : ∀ m, m ≠ n → s.LaneRests m) (hplace : r.length < 8) (hown : (r.filter (·.own)).length < 4) :
    s.startService e =
      ((s.refused e r .noSession).appendEntry
        (ownEntry (s.order + 1) s.bus.own pass (vget pass.lanes n) x.tag (pass.viewStart z))).setFetch n
          { x with state := .pending } := by
  have htakes : (s.refused e r .noSession).asks.takesOwn = true := by
    simp [AskService.takesOwn, State.refused, Config.askEntries, hplace, hown]
  have hoffered : (s.refused e r .noSession).offerOwn n = _ :=
    State.offerOwn_of_waiting hpass hzero hx hwaiting hlocal htakes
  have hfreed := State.placeFreed_of_one_waiting (s := s.refused e r .noSession) (n := n) hothers fun m hm =>
    hoffered ▸ State.fetch_setFetch_other _ _ hm
  rw [State.startService_refused htable hids hbus (State.askCheck_of_idle hidle), hfreed, hoffered]
  rfl

/-- An own entry and the lane it becomes, by the entry's checks (R171, R178). -/
theorem State.AsksOwn.startService_cases {i j : Fin 16} {x : Fetch} {l : Layout} (h : s.AsksOwn e r i j x)
    (hsession : s.session.state ≠ .idle → s.session.active = some p ∧ s.store.layout = some l)
    (hcolumns : e.columns = 280) (hpart : x.nextPart = 0) (hcol : x.nextCol = 0) :
    ∃ z, s.startService e = s.ownTaken r i z ∧
      (s.session.state = .idle → z = x.fail .noSession) ∧
      (s.session.state ≠ .idle → ¬ s.AskFits p e → z = x.fail .range) ∧
      (s.session.state ≠ .idle → s.AskFits p e → s.askedState e = .filling ∨ s.askedState e = .post →
        z = x.fail .live) ∧
      (s.session.state ≠ .idle → s.AskFits p e → s.askedState e = .complete ∨ s.askedState e = .cut →
        z = { (s.computeReply e).foldl Fetch.add x with state := .done, deadline := none, reaskAt := none }) := by
  by_cases hidle : s.session.state = .idle
  · exact ⟨_, h.startService_refused (State.askCheck_of_idle hidle) rfl, fun _ => rfl,
      fun hne => absurd hidle hne, fun hne => absurd hidle hne, fun hne => absurd hidle hne⟩
  obtain ⟨hplan, hl⟩ := hsession hidle
  by_cases hfits : s.AskFits p e
  · obtain hlive | hclosed := hfits.live_or_closed
    · refine ⟨_, h.startService_refused (State.askCheck_of_live hidle hplan hfits hlive) rfl,
        fun hi => absurd hi hidle, fun _ hn => absurd hfits hn, fun _ _ _ => rfl, fun _ _ hclosed => ?_⟩
      obtain hlive | hlive := hlive <;> simp [hlive] at hclosed
    · refine ⟨_, h.startService_replied hl hcolumns hpart hcol (State.askCheck_of_closed hidle hplan hfits hclosed),
        fun hi => absurd hi hidle, fun _ hn => absurd hfits hn, fun _ _ hlive => ?_, fun _ _ _ => rfl⟩
      obtain hclosed | hclosed := hclosed <;> simp [hclosed] at hlive
  · exact ⟨_, h.startService_refused (State.askCheck_of_not_fits hidle hplan hfits) rfl,
      fun hi => absurd hi hidle, fun _ _ => rfl, fun _ hf => absurd hf hfits, fun _ hf => absurd hf hfits⟩

end

/-- Settles O54: an entry from the bus and an own one by the first check that fails, the parts of a reply by how its
runs or boxes are cut, its boxes by how the sorted words of the window fall into them. -/
theorem engineTakesOldest : Obligations.EngineTakesOldest := by
  unfold Obligations.EngineTakesOldest
  refine ⟨fun s e r p htable hfree hbus hids hrests hplan => ?bus,
    fun s e r pass z n x htable hfree hbus hids hidle hpass hzero hx hwaiting hlocal hothers hplace hown => ?place,
    fun s e r p l pass i j x y htable hfree hids hown hsession hcolumns htag hx hpending hlocal hdecoder hpart hcol
      hruns hboxes hpass hzero hij hused hy hcomes hrests => ?own,
    fun s e l hl hlo hhi => ?reply, fun e w hcolumns => ?box⟩
  case bus =>
    have hservice := State.startService_of_bus htable hids hbus hrests
    refine ⟨_, exec_askServiceStart_of_oldest htable hfree, ?_, fun hidle => ?_, fun hrun hnot => ?_,
      fun hrun hfits hlive => ?_, fun hrun hfits hclosed => ?_⟩
    · rw [hservice]
      cases s.askCheck e <;> rfl
    · rw [hservice, State.askCheck_of_idle hidle]
      exact ⟨rfl, rfl⟩
    · rw [hservice, State.askCheck_of_not_fits hrun (hplan hrun) hnot]
      exact ⟨rfl, rfl⟩
    · rw [hservice, State.askCheck_of_live hrun (hplan hrun) hfits hlive]
      exact ⟨rfl, rfl⟩
    · rw [hservice, State.askCheck_of_closed hrun (hplan hrun) hfits hclosed]
      exact ⟨rfl, rfl⟩
  case place =>
    refine ⟨_, exec_askServiceStart_of_oldest htable hfree, ?_⟩
    rw [State.startService_frees_place htable hids hbus hidle hpass hzero hx hwaiting hlocal
      (fun m hm y hy hl => hothers m y hm hy hl) hplace hown]
    exact ⟨rfl, rfl⟩
  case own =>
    have hasks : s.AsksOwn e r i j x :=
      ⟨htable, hids, hown, htag, hx, hpending, hlocal, hdecoder, hij,
        ⟨pass, y, hpass, hzero, hused, hy, hcomes⟩, hrests⟩
    obtain ⟨z, hservice, hidle, hnot, hlive, hclosed⟩ := hasks.startService_cases hsession hcolumns hpart hcol
    rw [exec_askServiceStart_of_oldest htable hfree, hservice]
    have hfits : s.AskFits p e ↔
        e.seg.toNat < 2 ^ p.general.segCode.toNat ∧ e.index.toNat < (if e.words then 4 else 16) ∧
          s.askedState e ≠ .empty := by
      simp [State.AskFits, hcolumns]
    refine ⟨z, rfl, hidle, fun hrun hn => hnot hrun fun hf => hn (hfits.1 hf), fun hrun hf => hlive hrun (hfits.2 hf),
      fun hrun hf hst => ?_⟩
    obtain ⟨-, hnext, habsent, hallRuns, hallBoxes⟩ := Fetch.foldl_add_result (s.computeReply e) x
    rw [hpart, Nat.zero_add] at hnext
    rw [hruns, List.nil_append] at hallRuns
    rw [hboxes, List.nil_append] at hallBoxes
    rw [hclosed hrun (hfits.2 hf) hst]
    exact ⟨rfl, rfl, hnext, hallRuns, hallBoxes, habsent⟩
  case reply =>
    refine ⟨fun hwords => State.computeReply_runs_parts hl hwords hlo hhi rfl,
      fun hwords => State.computeReply_boxes_parts hwords rfl (s.length_askBoxes ..), s.length_askBoxes ..,
      s.neighbours_askBoxes _ _ _, fun t0 hwithin => ?_⟩
    obtain ⟨hsorted, hstable⟩ := State.askedWords_sorted hwithin
    obtain ⟨groups, rest, hboxed, hboxes⟩ := s.askBoxes_boxed e (readStation e.seg.toNat)
      ⟨e.index.toNat % 4, Nat.mod_lt _ (by decide)⟩
    refine ⟨_, groups, rest, hsorted, hstable, hboxed.spells, hboxed.count, hboxed.full, hboxed.joined,
      hboxed.apart, fun l1 g w l2 hgroups hrest => hboxed.restApart g (by simp [hgroups]) w (by simp [hrest]),
      hboxes.trans ?_⟩
    cases rest <;> rfl
  case box =>
    exact ⟨e.columnOf_spec hcolumns _, e.columnOf_spec hcolumns _, rfl, rfl, rfl, rfl, rfl, rfl, w.isError_iff⟩

end Sys2Proof.Machine
end

section
/-! PROOFS. About the blocks of the part (1.3): every command leaves alone each block that `mayChange` does not give it. -/

namespace Sys2Proof.Machine

/-! ## A state that differs from another in some blocks only -/

/-- `t` keeps the waiting commands of `s` and every block of it outside `l`. -/
def State.KeepsBut (s : State) (l : List Block) (t : State) : Prop :=
  t.pending = s.pending ∧ ∀ b, b ∉ l → s.sameIn t b

/-- The blocks one by one, each as the field that holds it. -/
theorem State.keepsBut_iff {s t : State} {l : List Block} :
    s.KeepsBut l t ↔
      t.pending = s.pending ∧ (.clock ∉ l → t.time = s.time) ∧ (.pins ∉ l → t.pins = s.pins) ∧
        (.frontEnd ∉ l → t.frontEnd = s.frontEnd) ∧ (.store ∉ l → t.store = s.store) ∧
        (.session ∉ l → t.session = s.session) ∧ (.sequencer ∉ l → t.sequencer = s.sequencer) ∧
        (.mark ∉ l → t.mark = s.mark) ∧ (.decoders ∉ l → t.decoders = s.decoders) ∧
        (.words ∉ l → t.words = s.words) ∧ (.bus ∉ l → t.bus = s.bus) ∧ (.peers ∉ l → t.peers = s.peers) ∧
        (.asks ∉ l → t.asks = s.asks) ∧ (.view ∉ l → t.view = s.view) := by
  constructor
  · rintro ⟨hpending, hblocks⟩
    exact ⟨hpending, hblocks .clock, hblocks .pins, hblocks .frontEnd, hblocks .store, hblocks .session,
      hblocks .sequencer, hblocks .mark, hblocks .decoders, hblocks .words, hblocks .bus, hblocks .peers,
      hblocks .asks, hblocks .view⟩
  · rintro ⟨hpending, hclock, hpins, hfrontEnd, hstore, hsession, hsequencer, hmark, hdecoders, hwords, hbus, hpeers,
      hasks, hview⟩
    refine ⟨hpending, fun b => ?_⟩
    cases b with
    | clock => exact hclock
    | pins => exact hpins
    | frontEnd => exact hfrontEnd
    | store => exact hstore
    | session => exact hsession
    | sequencer => exact hsequencer
    | mark => exact hmark
    | decoders => exact hdecoders
    | words => exact hwords
    | bus => exact hbus
    | peers => exact hpeers
    | asks => exact hasks
    | view => exact hview

theorem State.KeepsBut.refl (s : State) (l : List Block) : s.KeepsBut l s := by simp [State.keepsBut_iff]

theorem State.KeepsBut.trans {s u t : State} {l : List Block} (hsu : s.KeepsBut l u) (hut : u.KeepsBut l t) :
    s.KeepsBut l t := by
  obtain ⟨hpending, hblocks⟩ := hsu
  obtain ⟨hpending', hblocks'⟩ := hut
  refine ⟨hpending'.trans hpending, fun b hb => ?_⟩
  have hfirst := hblocks b hb
  have hsecond := hblocks' b hb
  cases b <;> exact Eq.trans hsecond hfirst

/-- A list that gives more blocks asks for less. -/
theorem State.KeepsBut.mono {s t : State} {l m : List Block} (h : s.KeepsBut l t) (hlm : l ⊆ m) : s.KeepsBut m t := by
  obtain ⟨hpending, hblocks⟩ := h
  exact ⟨hpending, fun b hb => hblocks b fun hl => hb (hlm hl)⟩

/-- An event that acts only where it falls due, and leaves the state unchanged elsewhere (log entries 11 and 12). -/
theorem State.KeepsBut.of_next_ite {c : Prop} [Decidable c] {s u t : State} {l : List Block} (hu : s.KeepsBut l u)
    (h : (.next (if c then u else s) : Host.Outcome State Fault Refusal) = .next t) : s.KeepsBut l t := by
  cases h
  split
  · exact hu
  · exact .refl s l

/-- The good receipt of a frame reaches the bus controller and the peer table. -/
theorem State.takeGood_keepsBut (s : State) (f : RxFrame) : s.KeepsBut [.bus, .peers] (s.takeGood f) := by
  simp [State.keepsBut_iff]

/-- A frame is heard by the bus controller and the peer table, and changes beside them what its block does. -/
theorem State.receive_keepsBut {act : State → State} {l : List Block} (hl : [.bus, .peers] ⊆ l)
    (ha : ∀ s : State, s.KeepsBut l (act s)) (f : RxFrame) (s : State) : s.KeepsBut l (s.receive f act) :=
  State.receive_induct (P := s.KeepsBut l) (fun f u h => h.trans ((u.takeGood_keepsBut f).mono hl))
    (fun u h => h.trans (ha u)) f s (.refl s l)

/-! ## The commands that are no due event and no plain frame -/

/-- The TIME_NOTE that waited for an own one's result may be placed then, and brings another frame back where the queue
is full (R148). -/
theorem State.noteAfter_keepsBut (e : QEntry) (s : State) :
    s.KeepsBut [.session, .words, .bus, .peers, .asks, .view] (s.noteAfter e) := by
  unfold State.noteAfter; split <;> simp [State.keepsBut_iff]

/-- The result of an own frame reaches its originator, the bus controller and the peer table (R144, R150). -/
theorem execFrameSent_keepsBut {stamp : StationTime} {s t : State} (h : execFrameSent stamp s = .next t) :
    s.KeepsBut (mayChange (.frameSent stamp)) t := by
  cases h
  split
  · exact .trans (by simp [State.keepsBut_iff, mayChange]) (State.noteAfter_keepsBut _ _)
  · exact .refl s _

theorem execFrameUnheard_keepsBut {s t : State} (h : execFrameUnheard s = .next t) :
    s.KeepsBut (mayChange .frameUnheard) t := by
  cases h
  split
  · exact .trans (by simp [State.keepsBut_iff, mayChange]) (State.noteAfter_keepsBut _ _)
  · exact .refl s _

theorem execFrameSpoiled_keepsBut {s t : State} (h : execFrameSpoiled s = .next t) :
    s.KeepsBut (mayChange .frameSpoiled) t := by
  cases h
  split
  · refine .trans ?_ (State.noteAfter_keepsBut _ _)
    split <;> simp [State.keepsBut_iff, mayChange]
  · exact .refl s _

/-- A place granted goes to one frame that waits, or to none (R147). -/
theorem execPlaceGranted_keepsBut {s t : State} (h : execPlaceGranted s = .next t) :
    s.KeepsBut (mayChange .placeGranted) t := by
  refine .of_next_ite ?_ h
  split <;> simp [State.keepsBut_iff, mayChange]

theorem execAskServiceStart_keepsBut {s t : State} (h : execAskServiceStart s = .next t) :
    s.KeepsBut (mayChange .askServiceStart) t := by
  refine .of_next_ite ?_ h
  split <;> simp [State.keepsBut_iff, mayChange]

/-- A bus break within a break changes nothing (R155). -/
theorem execBusBreak_keepsBut {s t : State} (h : execBusBreak s = .next t) : s.KeepsBut (mayChange .busBreak) t := by
  cases h
  split
  · exact .refl s _
  · simp [State.keepsBut_iff, mayChange]

/-- A full reset may change every block, and leaves the waiting commands (R156). -/
theorem State.fullReset_keepsBut (pins : Straps) (s : State) :
    s.KeepsBut (mayChange (.fullReset pins)) (s.fullReset pins) := by
  simp [State.keepsBut_iff, mayChange, State.fullReset]

theorem State.takeRestart_keepsBut (f : RxFrame) (s : State) :
    s.KeepsBut (mayChange (.restart f)) (State.takeRestart f s) := by
  unfold State.takeRestart
  split
  · exact s.fullReset_keepsBut s.pins
  · exact .refl s _

/-! ## Every command -/

/-- Every command keeps the waiting commands and each block that `mayChange` does not give it: an event where
it falls due, a frame where it is heard, and the rest as told above. -/
theorem exec_keepsBut {c : Instr} {s t : State} (h : exec c s = .next t) : s.KeepsBut (mayChange c) t := by
  cases c
  case fullReset pins => cases h; exact s.fullReset_keepsBut pins
  case comparatorStateChange ch uv => cases h; simp [State.keepsBut_iff, mayChange]
  case frameSent stamp => exact execFrameSent_keepsBut h
  case frameUnheard => exact execFrameUnheard_keepsBut h
  case frameSpoiled => exact execFrameSpoiled_keepsBut h
  case placeGranted => exact execPlaceGranted_keepsBut h
  case askServiceStart => exact execAskServiceStart_keepsBut h
  case busBreak => exact execBusBreak_keepsBut h
  case restart f => cases h; exact State.receive_keepsBut (by simp [mayChange]) (State.takeRestart_keepsBut f) f s
  case wordsNote f => cases h; exact State.receive_keepsBut (by simp [mayChange]) (fun u => .refl u _) f s
  case planPart f | arm f | halt f | timeNote f | rollCall f | markNote f | statusNote f | reduceAsk f | wordsAsk f |
      statusAsk f | stop f | viewPart f | viewGo f | runs f | boxes f =>
    cases h
    exact State.receive_keepsBut (by simp [mayChange]) (fun u => by simp [State.keepsBut_iff, mayChange]) f s
  case filteredLevelChange | sampleBoundary | stagingWrite | stageTimerExpiry | markEdge | markPulseEnd | edgeWaitEnd |
      windowClose | trigOutEnd | feedTimeout | timeNoteDue | busFree | transmitStart | frameReceiveError |
      rejoinTimerExpiry | joinComplete | presenceTimeout | fetchDeadline | reaskTimer | pushEnd | errorSignallingEnd |
      breakEnd =>
    exact .of_next_ite (by simp [State.keepsBut_iff, mayChange]) h

/-- Settles O3: every command answers, and its answer keeps what `mayChange` does not give it. -/
theorem commandsKeepOtherBlocks : Obligations.CommandsKeepOtherBlocks := by
  intro c s
  obtain ⟨t, ht⟩ := exec_answers c s
  exact ⟨t, ht, exec_keepsBut ht⟩

end Sys2Proof.Machine
end
